-- ==== Sys2Proof/Word.lean ====
section
/-! DEFINITION. The word types of BME280-CORE (spec/00_scope.md R7, R8): bit 0 is the least significant bit, an `uN` or
`sN` of the spec is one `BitVec N`, read with `toNat` as `uN` and with `toInt` as `sN`. -/

namespace Sys2Proof

/-- A byte (R7). -/
abbrev Byte := BitVec 8

/-- The word a port access moves, and the width of Stages 1 and 3 (R61, R151, R165). -/
abbrev Word := BitVec 32

/-- The width of Stage 2 (R157). -/
abbrev DWord := BitVec 64

/-- A byte offset in the host port register space (R60: `PORT_ADDR_BITS = 8`). -/
abbrev Offset := BitVec 8

/-- A port transaction in the spec's 41-bit notation `{K, ADDR, DATA}` (R80). -/
abbrev Transaction := BitVec 41

/-- The logical calibration buffer `B` of R7 and R36, by buffer offset. -/
abbrev Buffer := Nat → Byte

end Sys2Proof
end

