-- ==== Sys2Proof/Machine/Arith.lean ====
section
/-! DEFINITION. The operators of spec/00_scope.md R8 and R9 on `sN` values. `+`, `-` and `*` are those of `BitVec`: the
mathematical result modulo 2^N (R9, D8). Shift amounts are constants between 1 and 47 (R10). -/

namespace Sys2Proof.Machine

/-- `a << k`: the bit pattern shifted left, zeros in, bits above N-1 dropped (R9). -/
def shl {n : Nat} (a : BitVec n) (k : Nat) : BitVec n := a <<< k

/-- `a >> k`: the arithmetic right shift, `floor (a / 2^k)` (R9). -/
def asr {n : Nat} (a : BitVec n) (k : Nat) : BitVec n := a.sshiftRight k

/-- `a / b`: signed division truncating toward zero; `(-2^(N-1)) / (-1)` gives `-2^(N-1)` (R9). -/
def divT {n : Nat} (a b : BitVec n) : BitVec n := a.sdiv b

/-- `a < b` on the signed values (R9). -/
def ltS {n : Nat} (a b : BitVec n) : Bool := a.slt b

/-- `zext_N` (R8). -/
def zext (N : Nat) {n : Nat} (v : BitVec n) : BitVec N := v.setWidth N

/-- `sext_N` (R8). -/
def sext (N : Nat) {n : Nat} (v : BitVec n) : BitVec N := v.signExtend N

/-- `trunc_N` (R8). -/
def trunc (N : Nat) {n : Nat} (v : BitVec n) : BitVec N := v.setWidth N

/-- The field `v[lo + len - 1 : lo]` (R7). -/
def field {n : Nat} (v : BitVec n) (lo len : Nat) : BitVec len := v.extractLsb' lo len

end Sys2Proof.Machine
end

