-- ==== Sys2Proof/Config.lean ====
section
/-! DEFINITION. The implementation parameters of spec/00_scope.md R6. A decided parameter has the spec's value; an OPEN
one is a constant with no body, so that no proof can lean on a value of it. -/

namespace Sys2Proof.Config

/-- Bytes in calibration region A (R6). -/
def calLenA : Nat := 26

/-- Bytes in calibration region B (R6). -/
def calLenB : Nat := 7

/-- Length of the logical calibration buffer (R6). -/
def calLen : Nat := calLenA + calLenB

end Sys2Proof.Config

namespace Sys2Proof

/-- The two settings of the parameter `UNPACK_EXT` (R6, R194). -/
inductive UnpackExt
  | zero
  | sign
  deriving DecidableEq, Repr

end Sys2Proof

namespace Sys2Proof.Config

/-- `UNPACK_EXT`: the spec's value is `ZERO` (R6, D13). Log 9. -/
def unpackExt : UnpackExt := .zero

/-- `PORT_BASE`, OPEN (R6, R70): where a platform places the port on its bus. No rule of the block reads it. Log 10. -/
opaque portBase : Nat

/-- The host bus address of a port offset: every offset is relative to `PORT_BASE` (R70). -/
def busAddress (off : Offset) : Nat := portBase + off.toNat

/-- `FLOAT_RENDER(n, d)`, OPEN (R6, R176): the host's floating-point number for the rational `n / d`, as that number's
bit pattern in whatever format the host has. The spec assumes only that it depends on `n` and `d` alone. Log 11. -/
opaque floatRender : Int → Nat → Nat

/-- `SENSOR_BASE_A`, informational: no rule reads it (R6, D26). Log 12. -/
def sensorBaseA : Nat := 0x88

/-- `SENSOR_BASE_B`, informational: no rule reads it (R6, D26). Log 12. -/
def sensorBaseB : Nat := 0xE1

end Sys2Proof.Config
end

