-- ==== Sys2Proof/Machine/State.lean ====
section
/-! DEFINITION. The state of BME280-CORE (spec/10_state.md): the block's architectural state (R20: the named registers,
the staging buffer with its valid bits, the coefficient register file), the host's side of the port, and reset (R220). -/

namespace Sys2Proof.Machine

/-- The fields of `STATUS` (R24). Reserved bits hold nothing and read 0 (log 7). -/
structure Status where
  calLoaded : Bool
  loadFail : Bool
  pZero : Bool
  hClampLo : Bool
  hClampHi : Bool
  cmdErr : Bool
  accErr : Bool
  deriving DecidableEq, Repr

/-- The fields of `CAL_ERR` (R33). -/
structure CalErr where
  errA : Bool
  errB : Bool
  deriving DecidableEq, Repr

/-- The coefficient register file, 18 fields (R43). `h4` and `h5` are the `s16` registers that hold 12-bit signed values
(R43, R130; log 8). -/
structure Coefficients where
  t1 : BitVec 16
  t2 : BitVec 16
  t3 : BitVec 16
  p1 : BitVec 16
  p2 : BitVec 16
  p3 : BitVec 16
  p4 : BitVec 16
  p5 : BitVec 16
  p6 : BitVec 16
  p7 : BitVec 16
  p8 : BitVec 16
  p9 : BitVec 16
  h1 : BitVec 8
  h2 : BitVec 16
  h3 : BitVec 8
  h4 : BitVec 16
  h5 : BitVec 16
  h6 : BitVec 8
  deriving DecidableEq, Repr

/-- The staging buffer space (R60), as (offset, byte) cells: offsets strictly rising, no cell that equals what an
unlisted offset reads as (Machine/Ops.lean, `Memory.wf`; log 6). -/
abbrev Memory := List Host.Cell

/-- The block's architectural state (R20). `CMD`, `CAL_WR` and the `COEF_*` port registers store nothing of their own
(R23, R32, R44). -/
structure Block where
  /-- `STATUS` (R24). -/
  status : Status
  /-- `CAL_ERR` (R33). -/
  calErr : CalErr
  /-- `STAGE[0..32]` (R36). -/
  stage : Memory
  /-- `VLD[0..32]`, bit `i` is `VLD[i]` (R36), read through `CAL_VLD_A` and `CAL_VLD_B` (R34, R35). -/
  vld : BitVec 33
  /-- `RAW_T` (R37). -/
  rawT : Word
  /-- `RAW_P` (R37). -/
  rawP : Word
  /-- `RAW_H` (R37). -/
  rawH : Word
  /-- `ADC_T[23:0]` (R38). -/
  adcT : BitVec 24
  /-- `ADC_P[23:0]` (R38). -/
  adcP : BitVec 24
  /-- `ADC_H[15:0]` (R38). -/
  adcH : BitVec 16
  /-- `T_FINE` (R39). -/
  tFine : Word
  /-- `T_OUT` (R40). -/
  tOut : Word
  /-- `P_OUT` (R41). -/
  pOut : Word
  /-- `H_OUT` (R42). -/
  hOut : Word
  /-- The coefficient register file (R43). -/
  coef : Coefficients
  deriving DecidableEq, Repr

/-- What reaches the block from outside: one port transaction (R80), or the reset input (R220, R232). -/
inductive PortEvent
  | access (x : Transaction)
  | reset
  deriving DecidableEq, Repr

/-- The host's side of the port: the model's own state, not the block's (log 1, log 2). -/
structure Port where
  /-- The events still to be delivered, oldest first: the one total order of R72. -/
  pending : List PortEvent
  /-- The values RD transactions have returned, newest first (R232). -/
  reads : List Word
  deriving DecidableEq, Repr

/-- The machine: the block and the host's side of its port. -/
structure State where
  block : Block
  port : Port
  deriving DecidableEq, Repr

/-- The machine never stops with a fault: every error is a `STATUS` bit and execution goes on (R200, R208). No
constructor, so nobody raises one (log 16). -/
inductive Fault
  deriving DecidableEq, Repr

/-- Why a step has no meaning. -/
inductive Refusal
  /-- Raised by an arm of `exec` whose instruction has no meaning yet; safe (the model stops). No arm does. -/
  | notModelled (mnemonic : String)
  deriving DecidableEq, Repr

/-- Every field of `STATUS` after reset (R222). -/
def Status.zero : Status :=
  { calLoaded := false, loadFail := false, pZero := false, hClampLo := false, hClampHi := false, cmdErr := false,
    accErr := false }

/-- `CAL_ERR` after reset (R33). -/
def CalErr.zero : CalErr :=
  { errA := false, errB := false }

/-- The all-zero coefficient set: the reset value of the register file (R43, R221). -/
def Coefficients.zero : Coefficients :=
  { t1 := 0, t2 := 0, t3 := 0, p1 := 0, p2 := 0, p3 := 0, p4 := 0, p5 := 0, p6 := 0, p7 := 0, p8 := 0, p9 := 0,
    h1 := 0, h2 := 0, h3 := 0, h4 := 0, h5 := 0, h6 := 0 }

/-- The block right after reset: every register 0, every staging byte 0x00 (nothing listed), every valid bit 0 (R220). -/
def Block.reset : Block :=
  { status := Status.zero, calErr := CalErr.zero, stage := [], vld := 0, rawT := 0, rawP := 0, rawH := 0, adcT := 0,
    adcP := 0, adcH := 0, tFine := 0, tOut := 0, pOut := 0, hOut := 0, coef := Coefficients.zero }

/-- The machine right after reset, with nothing delivered and nothing read yet (R220; log 1, log 2). -/
def State.reset : State :=
  { block := Block.reset, port := { pending := [], reads := [] } }

end Sys2Proof.Machine
end

