-- ==== Sys2Proof/Machine/Flags.lean ====
section
/-! DEFINITION. The `STATUS` register (spec/10_state.md R24): its read value, its write-1-to-clear bits and how each flag
is computed. -/

namespace Sys2Proof.Machine

/-- A read of `STATUS`: `{22'b0, ACC_ERR, CMD_ERR, 3'b0, H_CLAMP_HI, H_CLAMP_LO, P_ZERO, LOAD_FAIL, CAL_LOADED}`
(R100). -/
def Status.toWord (f : Status) : Word :=
  0#22 ++ BitVec.ofBool f.accErr ++ BitVec.ofBool f.cmdErr ++ 0#3 ++ BitVec.ofBool f.hClampHi ++
    BitVec.ofBool f.hClampLo ++ BitVec.ofBool f.pZero ++ BitVec.ofBool f.loadFail ++ BitVec.ofBool f.calLoaded

/-- `STATUS` data word: bit [8] = 1 clears `CMD_ERR` (R89). -/
def clearsCmdErr (w : Word) : Bool := w.getLsbD 8

/-- `STATUS` data word: bit [9] = 1 clears `ACC_ERR` (R89). -/
def clearsAccErr (w : Word) : Bool := w.getLsbD 9

/-- A write of `STATUS`: each sticky bit is cleared by a 1 in its place; a 0 leaves it (R89, R108). -/
def Status.clearSticky (f : Status) (w : Word) : Status :=
  { f with cmdErr := f.cmdErr && !clearsCmdErr w, accErr := f.accErr && !clearsAccErr w }

/-- `P_ZERO`: the pressure denominator is zero (R161). -/
def pZeroFlag (d : DWord) : Bool := decide (d = 0)

/-- `H_CLAMP_LO`: the humidity value before the lower clamp is below 0 (R171). -/
def hClampLoFlag (v1 : Word) : Bool := ltS v1 0

/-- `H_CLAMP_HI`: the humidity value after the lower clamp is above 419430400 (R172). -/
def hClampHiFlag (v2 : Word) : Bool := ltS 419430400 v2

end Sys2Proof.Machine
end

