-- ==== Sys2Proof/Syntax.lean ====
section
/-! DEFINITION. The syntax of BME280-CORE: the 34 port registers of spec/10_state.md R22 and the 48 transaction forms of
spec/opcode_table.json (30_encoding.md R95), one constructor a row. -/

namespace Sys2Proof

/-- The host port registers, in the order of their offsets (R22). -/
inductive Reg
  | cmd
  | status
  | calWr
  | calErr
  | calVldA
  | calVldB
  | rawT
  | rawP
  | rawH
  | adcT
  | adcP
  | adcH
  | tFine
  | tOut
  | pOut
  | hOut
  | coefT1
  | coefT2
  | coefT3
  | coefP1
  | coefP2
  | coefP3
  | coefP4
  | coefP5
  | coefP6
  | coefP7
  | coefP8
  | coefP9
  | coefH1
  | coefH2
  | coefH3
  | coefH4
  | coefH5
  | coefH6
  deriving DecidableEq, Repr

/-- The access codes of R22. -/
inductive Access
  /-- `W`: write-only, a read returns 0 without error. -/
  | writeOnly
  /-- `R`: read-only, a write is an AccessError. -/
  | readOnly
  /-- `RW`. -/
  | readWrite
  /-- `R/W1C`: readable, the named bits cleared by writing 1. -/
  | readClear
  deriving DecidableEq, Repr

/-- The 48 transaction forms (R95). A WR keeps its whole data word as operand, ignored bits included; the data word
formats of R84 to R90 are taken apart in Machine/Operands.lean. An RD has no operand: its `DATA` is ignored (R80). -/
inductive Instr
  /-- `NOP`, R110. -/
  | nop
  /-- `CAL_BEGIN`, R122. -/
  | calBegin
  /-- `CAL_LOAD`, R123. -/
  | calLoad
  /-- `COMPENSATE`, R150. -/
  | compensate
  /-- `UNPACK_RAW`, R190. -/
  | unpackRaw
  /-- `WR.STATUS`, R108. -/
  | wrStatus (data : Word)
  /-- `WR.CAL_WR`, R120. -/
  | wrCalWr (data : Word)
  /-- `WR.CAL_ERR`, R121. -/
  | wrCalErr (data : Word)
  /-- `WR.RAW_T`, R102. -/
  | wrRawT (data : Word)
  /-- `WR.RAW_P`, R103. -/
  | wrRawP (data : Word)
  /-- `WR.RAW_H`, R104. -/
  | wrRawH (data : Word)
  /-- `WR.ADC_T`, R105. -/
  | wrAdcT (data : Word)
  /-- `WR.ADC_P`, R106. -/
  | wrAdcP (data : Word)
  /-- `WR.ADC_H`, R107. -/
  | wrAdcH (data : Word)
  /-- `RD.CMD`, R100. -/
  | rdCmd
  /-- `RD.STATUS`, R100. -/
  | rdStatus
  /-- `RD.CAL_WR`, R100. -/
  | rdCalWr
  /-- `RD.CAL_ERR`, R100. -/
  | rdCalErr
  /-- `RD.CAL_VLD_A`, R100. -/
  | rdCalVldA
  /-- `RD.CAL_VLD_B`, R100. -/
  | rdCalVldB
  /-- `RD.RAW_T`, R100. -/
  | rdRawT
  /-- `RD.RAW_P`, R100. -/
  | rdRawP
  /-- `RD.RAW_H`, R100. -/
  | rdRawH
  /-- `RD.ADC_T`, R100. -/
  | rdAdcT
  /-- `RD.ADC_P`, R100. -/
  | rdAdcP
  /-- `RD.ADC_H`, R100. -/
  | rdAdcH
  /-- `RD.T_FINE`, R100. -/
  | rdTFine
  /-- `RD.T_OUT`, R100. -/
  | rdTOut
  /-- `RD.P_OUT`, R100. -/
  | rdPOut
  /-- `RD.H_OUT`, R100. -/
  | rdHOut
  /-- `RD.COEF_T1`, R100. -/
  | rdCoefT1
  /-- `RD.COEF_T2`, R100. -/
  | rdCoefT2
  /-- `RD.COEF_T3`, R100. -/
  | rdCoefT3
  /-- `RD.COEF_P1`, R100. -/
  | rdCoefP1
  /-- `RD.COEF_P2`, R100. -/
  | rdCoefP2
  /-- `RD.COEF_P3`, R100. -/
  | rdCoefP3
  /-- `RD.COEF_P4`, R100. -/
  | rdCoefP4
  /-- `RD.COEF_P5`, R100. -/
  | rdCoefP5
  /-- `RD.COEF_P6`, R100. -/
  | rdCoefP6
  /-- `RD.COEF_P7`, R100. -/
  | rdCoefP7
  /-- `RD.COEF_P8`, R100. -/
  | rdCoefP8
  /-- `RD.COEF_P9`, R100. -/
  | rdCoefP9
  /-- `RD.COEF_H1`, R100. -/
  | rdCoefH1
  /-- `RD.COEF_H2`, R100. -/
  | rdCoefH2
  /-- `RD.COEF_H3`, R100. -/
  | rdCoefH3
  /-- `RD.COEF_H4`, R100. -/
  | rdCoefH4
  /-- `RD.COEF_H5`, R100. -/
  | rdCoefH5
  /-- `RD.COEF_H6`, R100. -/
  | rdCoefH6
  deriving DecidableEq, Repr

end Sys2Proof
end

