-- ==== Sys2Proof/Machine/Operands.lean ====
section
/-! DEFINITION. The operand forms: the data word formats of the writable registers (spec/30_encoding.md R84 to R91) and
what a read of each register returns (spec/40_register_access.md R100, 10_state.md R44). -/

namespace Sys2Proof.Machine

/-- `CAL_WR` data word: `DATA` = bits [7:0] (R84). -/
def calWrByte (w : Word) : Byte := field w 0 8

/-- `CAL_WR` data word: `OFFSET` = bits [13:8], unsigned (R84, R91). -/
def calWrOffset (w : Word) : Nat := (field w 8 6).toNat

/-- The legal values of `OFFSET`: 0 to 32 (R84, R85). -/
def calWrLegal (w : Word) : Bool := decide (calWrOffset w < Config.calLen)

/-- `CAL_ERR` data word: bit [0] is `ERR_A`, bit [1] is `ERR_B`, the rest is ignored (R86). -/
def calErrOfWord (w : Word) : CalErr := { errA := w.getLsbD 0, errB := w.getLsbD 1 }

/-- `ADC_T` data word: bits [23:0] are stored, bits [31:24] dropped (R87, R105). -/
def adcTOfWord (w : Word) : BitVec 24 := field w 0 24

/-- `ADC_P` data word: bits [23:0] are stored, bits [31:24] dropped (R87, R106). -/
def adcPOfWord (w : Word) : BitVec 24 := field w 0 24

/-- `ADC_H` data word: bits [15:0] are stored, bits [31:16] dropped (R88, R107). -/
def adcHOfWord (w : Word) : BitVec 16 := field w 0 16

/-- `MSB` of an `ADC_T` or `ADC_P` register (R38). -/
def adcMsb (v : BitVec 24) : Byte := field v 16 8

/-- `LSB` of an `ADC_T` or `ADC_P` register (R38). -/
def adcLsb (v : BitVec 24) : Byte := field v 8 8

/-- `XLSB` of an `ADC_T` or `ADC_P` register (R38). -/
def adcXlsb (v : BitVec 24) : Byte := field v 0 8

/-- `MSB` of the `ADC_H` register (R38). -/
def adcHMsb (v : BitVec 16) : Byte := field v 8 8

/-- `LSB` of the `ADC_H` register (R38). -/
def adcHLsb (v : BitVec 16) : Byte := field v 0 8

/-- A read of `CAL_ERR`: `{30'b0, ERR_B, ERR_A}` (R100). -/
def CalErr.toWord (e : CalErr) : Word := 0#30 ++ BitVec.ofBool e.errB ++ BitVec.ofBool e.errA

/-- A read of `CAL_VLD_A`: bit `i` is `VLD[i]` for 0 to 25, the rest 0 (R34, R100). -/
def calVldA (vld : BitVec 33) : Word := zext 32 (field vld 0 26)

/-- A read of `CAL_VLD_B`: bit `j` is `VLD[26 + j]` for 0 to 6, the rest 0 (R35, R100). -/
def calVldB (vld : BitVec 33) : Word := zext 32 (field vld 26 7)

/-- What a read of a register returns (R100). -/
def readReg (r : Reg) (b : Block) : Word :=
  match r with
  | .cmd => 0
  | .status => b.status.toWord
  | .calWr => 0
  | .calErr => b.calErr.toWord
  | .calVldA => calVldA b.vld
  | .calVldB => calVldB b.vld
  | .rawT => b.rawT
  | .rawP => b.rawP
  | .rawH => b.rawH
  | .adcT => zext 32 b.adcT
  | .adcP => zext 32 b.adcP
  | .adcH => zext 32 b.adcH
  | .tFine => b.tFine
  | .tOut => b.tOut
  | .pOut => b.pOut
  | .hOut => b.hOut
  | .coefT1 => zext 32 b.coef.t1
  | .coefT2 => sext 32 b.coef.t2
  | .coefT3 => sext 32 b.coef.t3
  | .coefP1 => zext 32 b.coef.p1
  | .coefP2 => sext 32 b.coef.p2
  | .coefP3 => sext 32 b.coef.p3
  | .coefP4 => sext 32 b.coef.p4
  | .coefP5 => sext 32 b.coef.p5
  | .coefP6 => sext 32 b.coef.p6
  | .coefP7 => sext 32 b.coef.p7
  | .coefP8 => sext 32 b.coef.p8
  | .coefP9 => sext 32 b.coef.p9
  | .coefH1 => zext 32 b.coef.h1
  | .coefH2 => sext 32 b.coef.h2
  | .coefH3 => zext 32 b.coef.h3
  | .coefH4 => sext 32 b.coef.h4
  | .coefH5 => sext 32 b.coef.h5
  | .coefH6 => sext 32 b.coef.h6

end Sys2Proof.Machine
end

