-- ==== Sys2Proof/WellFormed.lean ====
section
/-! DEFINITION. Which instructions are well formed: the one constraint of spec/opcode_table.json, `DATA[13:8] <= 32` of
the row `WR.CAL_WR` (spec/30_encoding.md R95). -/

namespace Sys2Proof

/-- Every operand is one the encoding admits (R95). -/
def Instr.wf (i : Instr) : Bool :=
  match i with
  | .wrCalWr data => Machine.calWrLegal data
  | .nop => true
  | .calBegin => true
  | .calLoad => true
  | .compensate => true
  | .unpackRaw => true
  | .wrStatus _ => true
  | .wrCalErr _ => true
  | .wrRawT _ => true
  | .wrRawP _ => true
  | .wrRawH _ => true
  | .wrAdcT _ => true
  | .wrAdcP _ => true
  | .wrAdcH _ => true
  | .rdCmd => true
  | .rdStatus => true
  | .rdCalWr => true
  | .rdCalErr => true
  | .rdCalVldA => true
  | .rdCalVldB => true
  | .rdRawT => true
  | .rdRawP => true
  | .rdRawH => true
  | .rdAdcT => true
  | .rdAdcP => true
  | .rdAdcH => true
  | .rdTFine => true
  | .rdTOut => true
  | .rdPOut => true
  | .rdHOut => true
  | .rdCoefT1 => true
  | .rdCoefT2 => true
  | .rdCoefT3 => true
  | .rdCoefP1 => true
  | .rdCoefP2 => true
  | .rdCoefP3 => true
  | .rdCoefP4 => true
  | .rdCoefP5 => true
  | .rdCoefP6 => true
  | .rdCoefP7 => true
  | .rdCoefP8 => true
  | .rdCoefP9 => true
  | .rdCoefH1 => true
  | .rdCoefH2 => true
  | .rdCoefH3 => true
  | .rdCoefH4 => true
  | .rdCoefH5 => true
  | .rdCoefH6 => true

end Sys2Proof
end

