-- ==== Sys2Proof/Decode.lean ====
section
/-! DEFINITION. Decoding a port transaction, total on every 41-bit word, rejecting by name (spec/30_encoding.md R80 to R83,
R92), then the encoder from the same tables, the rows of spec/opcode_table.json, and the host's entry point. -/

namespace Sys2Proof

/-- The byte offset of each register (R22). -/
def Reg.offset (r : Reg) : Offset :=
  match r with
  | .cmd => 0x00#8
  | .status => 0x04#8
  | .calWr => 0x08#8
  | .calErr => 0x0C#8
  | .calVldA => 0x10#8
  | .calVldB => 0x14#8
  | .rawT => 0x18#8
  | .rawP => 0x1C#8
  | .rawH => 0x20#8
  | .adcT => 0x24#8
  | .adcP => 0x28#8
  | .adcH => 0x2C#8
  | .tFine => 0x30#8
  | .tOut => 0x34#8
  | .pOut => 0x38#8
  | .hOut => 0x3C#8
  | .coefT1 => 0x40#8
  | .coefT2 => 0x44#8
  | .coefT3 => 0x48#8
  | .coefP1 => 0x4C#8
  | .coefP2 => 0x50#8
  | .coefP3 => 0x54#8
  | .coefP4 => 0x58#8
  | .coefP5 => 0x5C#8
  | .coefP6 => 0x60#8
  | .coefP7 => 0x64#8
  | .coefP8 => 0x68#8
  | .coefP9 => 0x6C#8
  | .coefH1 => 0x70#8
  | .coefH2 => 0x74#8
  | .coefH3 => 0x78#8
  | .coefH4 => 0x7C#8
  | .coefH5 => 0x80#8
  | .coefH6 => 0x84#8

/-- The access code of each register (R22). -/
def Reg.access (r : Reg) : Access :=
  match r with
  | .cmd => .writeOnly
  | .status => .readClear
  | .calWr => .writeOnly
  | .calErr => .readWrite
  | .calVldA => .readOnly
  | .calVldB => .readOnly
  | .rawT => .readWrite
  | .rawP => .readWrite
  | .rawH => .readWrite
  | .adcT => .readWrite
  | .adcP => .readWrite
  | .adcH => .readWrite
  | .tFine => .readOnly
  | .tOut => .readOnly
  | .pOut => .readOnly
  | .hOut => .readOnly
  | .coefT1 => .readOnly
  | .coefT2 => .readOnly
  | .coefT3 => .readOnly
  | .coefP1 => .readOnly
  | .coefP2 => .readOnly
  | .coefP3 => .readOnly
  | .coefP4 => .readOnly
  | .coefP5 => .readOnly
  | .coefP6 => .readOnly
  | .coefP7 => .readOnly
  | .coefP8 => .readOnly
  | .coefP9 => .readOnly
  | .coefH1 => .readOnly
  | .coefH2 => .readOnly
  | .coefH3 => .readOnly
  | .coefH4 => .readOnly
  | .coefH5 => .readOnly
  | .coefH6 => .readOnly

/-- Every register of R22, in the order of the offsets. -/
def allRegs : List Reg :=
  [.cmd, .status, .calWr, .calErr, .calVldA, .calVldB, .rawT, .rawP, .rawH, .adcT,
   .adcP, .adcH, .tFine, .tOut, .pOut, .hOut, .coefT1, .coefT2, .coefT3, .coefP1,
   .coefP2, .coefP3, .coefP4, .coefP5, .coefP6, .coefP7, .coefP8, .coefP9, .coefH1, .coefH2,
   .coefH3, .coefH4, .coefH5, .coefH6]

/-- The register at a port offset; none at a reserved one (R22, R46). -/
def regAt (addr : Offset) : Option Reg := allRegs.find? fun r => r.offset == addr

/-- Why a transaction is no row of the opcode table. `isWrite` is the bit `K` (R80). -/
inductive Rejection
  /-- `ADDR[1:0] != 0`: AccessError (R92 case 1, R204 cause 1). -/
  | misaligned (isWrite : Bool)
  /-- `ADDR` is a reserved offset: AccessError (R92 case 1, R204 cause 2). -/
  | reservedOffset (isWrite : Bool)
  /-- A WR to a read-only register: AccessError (R92 case 2, R204 cause 3). -/
  | readOnlyWrite
  /-- A WR to `CAL_WR` with `OFFSET > 32`: AccessError (R92 case 4, R204 cause 4). -/
  | calWrOffset
  /-- A WR to `CMD` of an illegal command word: CmdError (R83, R203). -/
  | illegalCommand
  deriving DecidableEq, Repr

/-- `K` of a transaction: 1 is a write (R80). -/
def txIsWrite (x : Transaction) : Bool := x.getLsbD 40

/-- `ADDR` of a transaction (R80). -/
def txAddr (x : Transaction) : Offset := x.extractLsb' 32 8

/-- `DATA` of a transaction (R80). -/
def txData (x : Transaction) : Word := x.extractLsb' 0 32

/-- The command word: `OP` = bits [3:0], bits [31:4] must be 0; codes 0x5 to 0xF are illegal (R81 to R83). -/
def decodeCommand (w : Word) : Except Rejection Instr :=
  if w.extractLsb' 4 28 = 0 then
    match (w.extractLsb' 0 4).toNat with
    | 0 => .ok .nop
    | 1 => .ok .calBegin
    | 2 => .ok .calLoad
    | 3 => .ok .compensate
    | 4 => .ok .unpackRaw
    | _ => .error .illegalCommand
  else .error .illegalCommand

/-- A WR to a mapped register, cases 2 to 5 of R92. -/
def decodeWrite (r : Reg) (w : Word) : Except Rejection Instr :=
  match r with
  | .cmd => decodeCommand w
  | .calWr => if Machine.calWrLegal w then .ok (.wrCalWr w) else .error .calWrOffset
  | .status => .ok (.wrStatus w)
  | .calErr => .ok (.wrCalErr w)
  | .calVldA => .error .readOnlyWrite
  | .calVldB => .error .readOnlyWrite
  | .rawT => .ok (.wrRawT w)
  | .rawP => .ok (.wrRawP w)
  | .rawH => .ok (.wrRawH w)
  | .adcT => .ok (.wrAdcT w)
  | .adcP => .ok (.wrAdcP w)
  | .adcH => .ok (.wrAdcH w)
  | .tFine => .error .readOnlyWrite
  | .tOut => .error .readOnlyWrite
  | .pOut => .error .readOnlyWrite
  | .hOut => .error .readOnlyWrite
  | .coefT1 => .error .readOnlyWrite
  | .coefT2 => .error .readOnlyWrite
  | .coefT3 => .error .readOnlyWrite
  | .coefP1 => .error .readOnlyWrite
  | .coefP2 => .error .readOnlyWrite
  | .coefP3 => .error .readOnlyWrite
  | .coefP4 => .error .readOnlyWrite
  | .coefP5 => .error .readOnlyWrite
  | .coefP6 => .error .readOnlyWrite
  | .coefP7 => .error .readOnlyWrite
  | .coefP8 => .error .readOnlyWrite
  | .coefP9 => .error .readOnlyWrite
  | .coefH1 => .error .readOnlyWrite
  | .coefH2 => .error .readOnlyWrite
  | .coefH3 => .error .readOnlyWrite
  | .coefH4 => .error .readOnlyWrite
  | .coefH5 => .error .readOnlyWrite
  | .coefH6 => .error .readOnlyWrite

/-- An RD of a mapped register, case 6 of R92. -/
def decodeRead (r : Reg) : Instr :=
  match r with
  | .cmd => .rdCmd
  | .status => .rdStatus
  | .calWr => .rdCalWr
  | .calErr => .rdCalErr
  | .calVldA => .rdCalVldA
  | .calVldB => .rdCalVldB
  | .rawT => .rdRawT
  | .rawP => .rdRawP
  | .rawH => .rdRawH
  | .adcT => .rdAdcT
  | .adcP => .rdAdcP
  | .adcH => .rdAdcH
  | .tFine => .rdTFine
  | .tOut => .rdTOut
  | .pOut => .rdPOut
  | .hOut => .rdHOut
  | .coefT1 => .rdCoefT1
  | .coefT2 => .rdCoefT2
  | .coefT3 => .rdCoefT3
  | .coefP1 => .rdCoefP1
  | .coefP2 => .rdCoefP2
  | .coefP3 => .rdCoefP3
  | .coefP4 => .rdCoefP4
  | .coefP5 => .rdCoefP5
  | .coefP6 => .rdCoefP6
  | .coefP7 => .rdCoefP7
  | .coefP8 => .rdCoefP8
  | .coefP9 => .rdCoefP9
  | .coefH1 => .rdCoefH1
  | .coefH2 => .rdCoefH2
  | .coefH3 => .rdCoefH3
  | .coefH4 => .rdCoefH4
  | .coefH5 => .rdCoefH5
  | .coefH6 => .rdCoefH6

/-- The decoder, in the order of R92. `DATA` of an RD is ignored (R80, D24). -/
def decode (x : Transaction) : Except Rejection Instr :=
  if (txAddr x).extractLsb' 0 2 ≠ 0 then .error (.misaligned (txIsWrite x))
  else
    match regAt (txAddr x) with
    | none => .error (.reservedOffset (txIsWrite x))
    | some r => if txIsWrite x then decodeWrite r (txData x) else .ok (decodeRead r)

/-- `WR <reg>, w` as a transaction (R80, R94). -/
def encodeWrite (r : Reg) (w : Word) : Transaction := 1#1 ++ r.offset ++ w

/-- `RD <reg>` as a transaction, `DATA` written 0 (R80, R94). -/
def encodeRead (r : Reg) : Transaction := 0#1 ++ r.offset ++ 0#32

/-- The encoder: the transaction of an instruction (R80 to R82, R94). -/
def encode (i : Instr) : Transaction :=
  match i with
  | .nop => encodeWrite .cmd 0
  | .calBegin => encodeWrite .cmd 1
  | .calLoad => encodeWrite .cmd 2
  | .compensate => encodeWrite .cmd 3
  | .unpackRaw => encodeWrite .cmd 4
  | .wrStatus data => encodeWrite .status data
  | .wrCalWr data => encodeWrite .calWr data
  | .wrCalErr data => encodeWrite .calErr data
  | .wrRawT data => encodeWrite .rawT data
  | .wrRawP data => encodeWrite .rawP data
  | .wrRawH data => encodeWrite .rawH data
  | .wrAdcT data => encodeWrite .adcT data
  | .wrAdcP data => encodeWrite .adcP data
  | .wrAdcH data => encodeWrite .adcH data
  | .rdCmd => encodeRead .cmd
  | .rdStatus => encodeRead .status
  | .rdCalWr => encodeRead .calWr
  | .rdCalErr => encodeRead .calErr
  | .rdCalVldA => encodeRead .calVldA
  | .rdCalVldB => encodeRead .calVldB
  | .rdRawT => encodeRead .rawT
  | .rdRawP => encodeRead .rawP
  | .rdRawH => encodeRead .rawH
  | .rdAdcT => encodeRead .adcT
  | .rdAdcP => encodeRead .adcP
  | .rdAdcH => encodeRead .adcH
  | .rdTFine => encodeRead .tFine
  | .rdTOut => encodeRead .tOut
  | .rdPOut => encodeRead .pOut
  | .rdHOut => encodeRead .hOut
  | .rdCoefT1 => encodeRead .coefT1
  | .rdCoefT2 => encodeRead .coefT2
  | .rdCoefT3 => encodeRead .coefT3
  | .rdCoefP1 => encodeRead .coefP1
  | .rdCoefP2 => encodeRead .coefP2
  | .rdCoefP3 => encodeRead .coefP3
  | .rdCoefP4 => encodeRead .coefP4
  | .rdCoefP5 => encodeRead .coefP5
  | .rdCoefP6 => encodeRead .coefP6
  | .rdCoefP7 => encodeRead .coefP7
  | .rdCoefP8 => encodeRead .coefP8
  | .rdCoefP9 => encodeRead .coefP9
  | .rdCoefH1 => encodeRead .coefH1
  | .rdCoefH2 => encodeRead .coefH2
  | .rdCoefH3 => encodeRead .coefH3
  | .rdCoefH4 => encodeRead .coefH4
  | .rdCoefH5 => encodeRead .coefH5
  | .rdCoefH6 => encodeRead .coefH6

/-- One row of spec/opcode_table.json: a transaction has the row's form when `X & mask` is `pattern` (R95). -/
structure OpcodeRow where
  mnemonic : String
  pattern : Transaction
  mask : Transaction
  deriving DecidableEq, Repr

/-- The row of each constructor, as spec/opcode_table.json has it (R95). -/
def Instr.row (i : Instr) : OpcodeRow :=
  match i with
  | .nop => ⟨"NOP", 0x10000000000, 0x1FFFFFFFFFF⟩
  | .calBegin => ⟨"CAL_BEGIN", 0x10000000001, 0x1FFFFFFFFFF⟩
  | .calLoad => ⟨"CAL_LOAD", 0x10000000002, 0x1FFFFFFFFFF⟩
  | .compensate => ⟨"COMPENSATE", 0x10000000003, 0x1FFFFFFFFFF⟩
  | .unpackRaw => ⟨"UNPACK_RAW", 0x10000000004, 0x1FFFFFFFFFF⟩
  | .wrStatus _ => ⟨"WR.STATUS", 0x10400000000, 0x1FF00000000⟩
  | .wrCalWr _ => ⟨"WR.CAL_WR", 0x10800000000, 0x1FF00000000⟩
  | .wrCalErr _ => ⟨"WR.CAL_ERR", 0x10C00000000, 0x1FF00000000⟩
  | .wrRawT _ => ⟨"WR.RAW_T", 0x11800000000, 0x1FF00000000⟩
  | .wrRawP _ => ⟨"WR.RAW_P", 0x11C00000000, 0x1FF00000000⟩
  | .wrRawH _ => ⟨"WR.RAW_H", 0x12000000000, 0x1FF00000000⟩
  | .wrAdcT _ => ⟨"WR.ADC_T", 0x12400000000, 0x1FF00000000⟩
  | .wrAdcP _ => ⟨"WR.ADC_P", 0x12800000000, 0x1FF00000000⟩
  | .wrAdcH _ => ⟨"WR.ADC_H", 0x12C00000000, 0x1FF00000000⟩
  | .rdCmd => ⟨"RD.CMD", 0x00000000000, 0x1FF00000000⟩
  | .rdStatus => ⟨"RD.STATUS", 0x00400000000, 0x1FF00000000⟩
  | .rdCalWr => ⟨"RD.CAL_WR", 0x00800000000, 0x1FF00000000⟩
  | .rdCalErr => ⟨"RD.CAL_ERR", 0x00C00000000, 0x1FF00000000⟩
  | .rdCalVldA => ⟨"RD.CAL_VLD_A", 0x01000000000, 0x1FF00000000⟩
  | .rdCalVldB => ⟨"RD.CAL_VLD_B", 0x01400000000, 0x1FF00000000⟩
  | .rdRawT => ⟨"RD.RAW_T", 0x01800000000, 0x1FF00000000⟩
  | .rdRawP => ⟨"RD.RAW_P", 0x01C00000000, 0x1FF00000000⟩
  | .rdRawH => ⟨"RD.RAW_H", 0x02000000000, 0x1FF00000000⟩
  | .rdAdcT => ⟨"RD.ADC_T", 0x02400000000, 0x1FF00000000⟩
  | .rdAdcP => ⟨"RD.ADC_P", 0x02800000000, 0x1FF00000000⟩
  | .rdAdcH => ⟨"RD.ADC_H", 0x02C00000000, 0x1FF00000000⟩
  | .rdTFine => ⟨"RD.T_FINE", 0x03000000000, 0x1FF00000000⟩
  | .rdTOut => ⟨"RD.T_OUT", 0x03400000000, 0x1FF00000000⟩
  | .rdPOut => ⟨"RD.P_OUT", 0x03800000000, 0x1FF00000000⟩
  | .rdHOut => ⟨"RD.H_OUT", 0x03C00000000, 0x1FF00000000⟩
  | .rdCoefT1 => ⟨"RD.COEF_T1", 0x04000000000, 0x1FF00000000⟩
  | .rdCoefT2 => ⟨"RD.COEF_T2", 0x04400000000, 0x1FF00000000⟩
  | .rdCoefT3 => ⟨"RD.COEF_T3", 0x04800000000, 0x1FF00000000⟩
  | .rdCoefP1 => ⟨"RD.COEF_P1", 0x04C00000000, 0x1FF00000000⟩
  | .rdCoefP2 => ⟨"RD.COEF_P2", 0x05000000000, 0x1FF00000000⟩
  | .rdCoefP3 => ⟨"RD.COEF_P3", 0x05400000000, 0x1FF00000000⟩
  | .rdCoefP4 => ⟨"RD.COEF_P4", 0x05800000000, 0x1FF00000000⟩
  | .rdCoefP5 => ⟨"RD.COEF_P5", 0x05C00000000, 0x1FF00000000⟩
  | .rdCoefP6 => ⟨"RD.COEF_P6", 0x06000000000, 0x1FF00000000⟩
  | .rdCoefP7 => ⟨"RD.COEF_P7", 0x06400000000, 0x1FF00000000⟩
  | .rdCoefP8 => ⟨"RD.COEF_P8", 0x06800000000, 0x1FF00000000⟩
  | .rdCoefP9 => ⟨"RD.COEF_P9", 0x06C00000000, 0x1FF00000000⟩
  | .rdCoefH1 => ⟨"RD.COEF_H1", 0x07000000000, 0x1FF00000000⟩
  | .rdCoefH2 => ⟨"RD.COEF_H2", 0x07400000000, 0x1FF00000000⟩
  | .rdCoefH3 => ⟨"RD.COEF_H3", 0x07800000000, 0x1FF00000000⟩
  | .rdCoefH4 => ⟨"RD.COEF_H4", 0x07C00000000, 0x1FF00000000⟩
  | .rdCoefH5 => ⟨"RD.COEF_H5", 0x08000000000, 0x1FF00000000⟩
  | .rdCoefH6 => ⟨"RD.COEF_H6", 0x08400000000, 0x1FF00000000⟩

/-- The data word an instruction carries: a WR's (R94); none for a command word, which its row fixes, or an RD. -/
def Instr.operand (i : Instr) : Option Word :=
  match i with
  | .nop => none
  | .calBegin => none
  | .calLoad => none
  | .compensate => none
  | .unpackRaw => none
  | .wrStatus data => some data
  | .wrCalWr data => some data
  | .wrCalErr data => some data
  | .wrRawT data => some data
  | .wrRawP data => some data
  | .wrRawH data => some data
  | .wrAdcT data => some data
  | .wrAdcP data => some data
  | .wrAdcH data => some data
  | .rdCmd => none
  | .rdStatus => none
  | .rdCalWr => none
  | .rdCalErr => none
  | .rdCalVldA => none
  | .rdCalVldB => none
  | .rdRawT => none
  | .rdRawP => none
  | .rdRawH => none
  | .rdAdcT => none
  | .rdAdcP => none
  | .rdAdcH => none
  | .rdTFine => none
  | .rdTOut => none
  | .rdPOut => none
  | .rdHOut => none
  | .rdCoefT1 => none
  | .rdCoefT2 => none
  | .rdCoefT3 => none
  | .rdCoefP1 => none
  | .rdCoefP2 => none
  | .rdCoefP3 => none
  | .rdCoefP4 => none
  | .rdCoefP5 => none
  | .rdCoefP6 => none
  | .rdCoefP7 => none
  | .rdCoefP8 => none
  | .rdCoefP9 => none
  | .rdCoefH1 => none
  | .rdCoefH2 => none
  | .rdCoefH3 => none
  | .rdCoefH4 => none
  | .rdCoefH5 => none
  | .rdCoefH6 => none

/-- The transaction of a number whose bits are numbered as spec/opcode_table.json numbers them, none where a bit above
bit 40 is set: a transaction has 41 bits (R80; log 15). -/
def transactionOfNat (nbits w : Nat) : Option Transaction :=
  if w % 2 ^ nbits < 2 ^ 41 then some (BitVec.ofNat 41 (w % 2 ^ nbits)) else none

/-- The instruction the decoder reads from a table word (the host's entry point). -/
def decodeTableWord (nbits w : Nat) : Option Instr :=
  match transactionOfNat nbits w with
  | none => none
  | some x =>
    match decode x with
    | .ok i => some i
    | .error _ => none

end Sys2Proof
end

