-- ==== Sys2Proof/Machine/Ops.lean ====
section
/-! DEFINITION. The named operations over memory and registers, the error outcomes (spec/60_exceptions.md: the block has
no trap, so taking an error is setting its `STATUS` bit, and there is no return from one, R200, R208), and the reset event. -/

namespace Sys2Proof.Machine

/-- What a step answers. -/
abbrev Result := Host.Outcome State Fault Refusal

/-! ## The staging buffer -/

/-- What a staging offset that is not listed reads as: the reset value of every `STAGE[i]` (R36). -/
def unlistedByte : Byte := 0

/-- One byte of the staging buffer. -/
def Memory.read (m : Memory) (a : Nat) : Byte :=
  match m with
  | [] => unlistedByte
  | c :: rest => if c.1 = a then c.2 else Memory.read rest a

/-- The staging buffer without a cell for `a`. -/
def Memory.erase (m : Memory) (a : Nat) : Memory := m.filter fun c => c.1 != a

/-- A cell put before the first cell of a higher offset. -/
def Memory.insert (m : Memory) (a : Nat) (v : Byte) : Memory :=
  match m with
  | [] => [(a, v)]
  | c :: rest => if c.1 < a then c :: Memory.insert rest a v else (a, v) :: c :: rest

/-- `STAGE[a] <- v` (R120): writing what an unlisted offset reads as removes the cell. -/
def Memory.write (m : Memory) (a : Nat) (v : Byte) : Memory :=
  if v = unlistedByte then m.erase a else (m.erase a).insert a v

/-- The offsets rise strictly. -/
def Memory.rising (m : Memory) : Bool :=
  match m with
  | [] => true
  | c :: rest => rest.all (fun d => decide (c.1 < d.1)) && Memory.rising rest

/-- The canonical form: strictly rising offsets, all in 0 to 32 (R36), no cell equal to `unlistedByte`. -/
def Memory.wf (m : Memory) : Bool :=
  m.rising && m.all (fun c => decide (c.1 < Config.calLen) && c.2 != unlistedByte)

/-! ## Updates of the state -/

/-- The machine with another block. -/
def State.withBlock (s : State) (b : Block) : State := { s with block := b }

/-- An RD returns `v` (R100, R232). -/
def State.respond (s : State) (v : Word) : State :=
  { s with port := { s.port with reads := v :: s.port.reads } }

/-- The machine with other events still to be delivered. -/
def State.withPending (s : State) (events : List PortEvent) : State :=
  { s with port := { s.port with pending := events } }

/-! ## Errors (R200 to R206) -/

/-- `raise AccessError()`: the sticky bit and nothing else (R204). -/
def raiseAccessError (b : Block) : Block := { b with status := { b.status with accErr := true } }

/-- `raise CmdError()`: the sticky bit and nothing else (R203). -/
def raiseCmdError (b : Block) : Block := { b with status := { b.status with cmdErr := true } }

/-- `raise TransportFailure()`: `LOAD_FAIL` and nothing else (R139, R202). -/
def raiseTransportFailure (b : Block) : Block := { b with status := { b.status with loadFail := true } }

/-- An illegal access: `ACC_ERR` is set, a faulting RD returns 0, a faulting WR changes nothing else (R204). -/
def takeAccessError (isWrite : Bool) (s : State) : State :=
  if isWrite then s.withBlock (raiseAccessError s.block)
  else (s.withBlock (raiseAccessError s.block)).respond 0

/-- The outcome of a transaction that is no row of the opcode table (R92, R203, R204). -/
def takeRejection (e : Rejection) (s : State) : State :=
  match e with
  | .misaligned isWrite => takeAccessError isWrite s
  | .reservedOffset isWrite => takeAccessError isWrite s
  | .readOnlyWrite => takeAccessError true s
  | .calWrOffset => takeAccessError true s
  | .illegalCommand => s.withBlock (raiseCmdError s.block)

/-! ## Events that are no access -/

/-- The reset input is applied: every piece of the block's state takes its reset value at once (R220). The host's queue
and the values it has read are not the block's and stay (log 4). -/
def applyReset (s : State) : State := s.withBlock Block.reset

/-- Nothing is delivered: the block waits for the next access and nothing changes (R21, R48; log 3). -/
def idle (s : State) : State := s

end Sys2Proof.Machine
end

