-- ==== Sys2Proof/Machine/Calibration.lean ====
section
/-! DEFINITION. The calibration loader family (spec/41_calibration.md): `WR.CAL_WR`, `WR.CAL_ERR`, `CAL_BEGIN`, `CAL_LOAD`
and the coefficient decode. -/

namespace Sys2Proof.Machine

/-! ## The field layout of the 33-byte buffer (R126, D4): the one place an offset is written -/

/-- Buffer offset of `T1` (R128). -/
def Layout.t1 : Nat := 0

/-- Buffer offset of `T2` (R128). -/
def Layout.t2 : Nat := 2

/-- Buffer offset of `T3` (R128). -/
def Layout.t3 : Nat := 4

/-- Buffer offset of `P1` (R129). -/
def Layout.p1 : Nat := 6

/-- Buffer offset of `P2` (R129). -/
def Layout.p2 : Nat := 8

/-- Buffer offset of `P3` (R129). -/
def Layout.p3 : Nat := 10

/-- Buffer offset of `P4` (R129). -/
def Layout.p4 : Nat := 12

/-- Buffer offset of `P5` (R129). -/
def Layout.p5 : Nat := 14

/-- Buffer offset of `P6` (R129). -/
def Layout.p6 : Nat := 16

/-- Buffer offset of `P7` (R129). -/
def Layout.p7 : Nat := 18

/-- Buffer offset of `P8` (R129). -/
def Layout.p8 : Nat := 20

/-- Buffer offset of `P9` (R129). -/
def Layout.p9 : Nat := 22

/-- Buffer offset of `H1` (R131). -/
def Layout.h1 : Nat := 25

/-- Buffer offset of `H2` (R132). -/
def Layout.h2 : Nat := 26

/-- Buffer offset of `H3` (R133). -/
def Layout.h3 : Nat := 28

/-- Buffer offset of the three packed bytes of `H4` and `H5` (R134, R135). -/
def Layout.h45 : Nat := 29

/-- Buffer offset of `H6` (R136). -/
def Layout.h6 : Nat := 32

/-! ## Decode -/

/-- The little-endian 16-bit read `{B[i+1], B[i]}` (R127). `sle16` is the same 16 bits read with `toInt`. -/
def le16 (B : Buffer) (i : Nat) : BitVec 16 := B (i + 1) ++ B i

/-- The 12-bit sign extension, held as `s16` (R130). -/
def sext12 (v : BitVec 12) : BitVec 16 := sext 16 v

/-- `H4`: `B[29]` over the low nibble of `B[30]`, sign-extended from 12 bits (R134). -/
def decodeH4 (B : Buffer) : BitVec 16 := sext12 (B Layout.h45 ++ field (B (Layout.h45 + 1)) 0 4)

/-- `H5`: `B[31]` over the high nibble of `B[30]`, sign-extended from 12 bits (R135). -/
def decodeH5 (B : Buffer) : BitVec 16 := sext12 (B (Layout.h45 + 2) ++ field (B (Layout.h45 + 1)) 4 4)

/-- `Decode(B)`, a function of the buffer alone; offset 24 belongs to no field (R126 to R137). -/
def decodeCoefs (B : Buffer) : Coefficients :=
  { t1 := le16 B Layout.t1
    t2 := le16 B Layout.t2
    t3 := le16 B Layout.t3
    p1 := le16 B Layout.p1
    p2 := le16 B Layout.p2
    p3 := le16 B Layout.p3
    p4 := le16 B Layout.p4
    p5 := le16 B Layout.p5
    p6 := le16 B Layout.p6
    p7 := le16 B Layout.p7
    p8 := le16 B Layout.p8
    p9 := le16 B Layout.p9
    h1 := B Layout.h1
    h2 := le16 B Layout.h2
    h3 := B Layout.h3
    h4 := decodeH4 B
    h5 := decodeH5 B
    h6 := B Layout.h6 }

/-- The two cells of a little-endian 16-bit field. -/
def cells16 (i : Nat) (v : BitVec 16) : List Host.Cell := [(i, field v 0 8), (i + 1, field v 8 8)]

/-- The three cells of `H4` and `H5`, which share the middle byte (R134, R135). -/
def cellsH45 (h4 h5 : BitVec 16) : List Host.Cell :=
  [(Layout.h45, field h4 4 8), (Layout.h45 + 1, field h5 0 4 ++ field h4 0 4), (Layout.h45 + 2, field h5 4 8)]

/-- `Encode(coef)`: the inverse layout, offset 24 being 0 (R142). -/
def encodeCoefs (c : Coefficients) : Buffer :=
  Memory.read
    (cells16 Layout.t1 c.t1 ++
      cells16 Layout.t2 c.t2 ++
      cells16 Layout.t3 c.t3 ++
      cells16 Layout.p1 c.p1 ++
      cells16 Layout.p2 c.p2 ++
      cells16 Layout.p3 c.p3 ++
      cells16 Layout.p4 c.p4 ++
      cells16 Layout.p5 c.p5 ++
      cells16 Layout.p6 c.p6 ++
      cells16 Layout.p7 c.p7 ++
      cells16 Layout.p8 c.p8 ++
      cells16 Layout.p9 c.p9 ++
      [(Layout.h1, c.h1)] ++
      cells16 Layout.h2 c.h2 ++
      [(Layout.h3, c.h3)] ++
      cellsH45 c.h4 c.h5 ++
      [(Layout.h6, c.h6)])

/-! ## Delivery of calibration bytes -/

/-- `STAGE[off] <- v`, `VLD[off] <- 1` (R120). -/
def deliverByte (b : Block) (off : Nat) (v : Byte) : Block :=
  { b with stage := b.stage.write off v, vld := b.vld ||| 1#33 <<< off }

/-- `VLD[0..32] <- 0`, `CAL_ERR <- 0`; `STAGE` keeps its bytes (R122, R140). -/
def discardDelivered (b : Block) : Block := { b with vld := 0, calErr := CalErr.zero }

/-- `WR CAL_WR, w` (R120): an illegal offset is an AccessError (R85; log 14). -/
def execWrCalWr (data : Word) (s : State) : Result :=
  if calWrLegal data then .next (s.withBlock (deliverByte s.block (calWrOffset data) (calWrByte data)))
  else .next (takeAccessError true s)

/-- `WR CAL_ERR, w` (R121). -/
def execWrCalErr (data : Word) (s : State) : Result :=
  .next (s.withBlock { s.block with calErr := calErrOfWord data })

/-- `CAL_BEGIN`: discard a partial fetch (R122). -/
def execCalBegin (s : State) : Result := .next (s.withBlock (discardDelivered s.block))

/-! ## The load command -/

/-- Every region A byte was delivered: `VLD[i] = 1` for 0 to 25 (R124). -/
def regionAComplete (vld : BitVec 33) : Bool := decide (field vld 0 26 = BitVec.allOnes 26)

/-- Every region B byte was delivered: `VLD[i] = 1` for 26 to 32 (R124). -/
def regionBComplete (vld : BitVec 33) : Bool := decide (field vld 26 7 = BitVec.allOnes 7)

/-- `CAL_LOAD` succeeds: both regions complete and no transport error reported (R123, R124). -/
def loadOk (b : Block) : Bool :=
  regionAComplete b.vld && regionBComplete b.vld && !b.calErr.errA && !b.calErr.errB

/-- The logical calibration buffer at a successful load: `B[i] = STAGE[i]` (R36). -/
def Block.buffer (b : Block) : Buffer := b.stage.read

/-- All 18 fields replaced in one step, `CAL_LOADED <- 1`, `LOAD_FAIL <- 0` (R123, R138). -/
def commitCoefs (b : Block) : Block :=
  { b with
    coef := decodeCoefs b.buffer
    status := { b.status with calLoaded := true, loadFail := false } }

/-- Check, decode and commit, or TransportFailure; then clean up (R123, R139, R140). -/
def calLoad (b : Block) : Block :=
  discardDelivered (if loadOk b then commitCoefs b else raiseTransportFailure b)

/-- `CAL_LOAD` (R123). -/
def execCalLoad (s : State) : Result := .next (s.withBlock (calLoad s.block))

end Sys2Proof.Machine
end

