-- ==== Sys2Proof/Machine/Compensation.lean ====
section
/-! DEFINITION. The compensation engine (spec/42_compensation.md): the three stages and `COMPENSATE`. Each definition is
one named intermediate of the rule it cites, at the rule's width, with the operators of R9 (Machine/Arith.lean). -/

namespace Sys2Proof.Machine

/-! ## Stage 1: temperature, signed 32 bits (R151) -/

/-- `a = (rt >> 3) - (t1 << 1)` (R152). -/
def stage1A (c : Coefficients) (rt : Word) : Word := asr rt 3 - shl (zext 32 c.t1) 1

/-- `var1 = (a * t2) >> 11` (R152). -/
def stage1Var1 (c : Coefficients) (rt : Word) : Word := asr (stage1A c rt * sext 32 c.t2) 11

/-- `b = (rt >> 4) - t1` (R153). -/
def stage1B (c : Coefficients) (rt : Word) : Word := asr rt 4 - zext 32 c.t1

/-- `var2 = (((b * b) >> 12) * t3) >> 14` (R153). -/
def stage1Var2 (c : Coefficients) (rt : Word) : Word :=
  asr (asr (stage1B c rt * stage1B c rt) 12 * sext 32 c.t3) 14

/-- `t_fine = var1 + var2` (R154). -/
def tFineOf (c : Coefficients) (rt : Word) : Word := stage1Var1 c rt + stage1Var2 c rt

/-- `t_out = ((t_fine * 5) + 128) >> 8` (R155), not clamped (R156). -/
def tOutOf (tf : Word) : Word := asr (tf * 5 + 128) 8

/-! ## Stage 2: pressure, signed 64 bits throughout (R157) -/

/-- `q1 = tf - 128000` (R158). -/
def stage2Q1 (tf : Word) : DWord := sext 64 tf - 128000

/-- `q4 = q1 * q1 * p6 + ((q1 * p5) << 17) + (p4 << 35)` (R159). -/
def stage2Q4 (c : Coefficients) (q1 : DWord) : DWord :=
  q1 * q1 * sext 64 c.p6 + shl (q1 * sext 64 c.p5) 17 + shl (sext 64 c.p4) 35

/-- `q5 = ((q1 * q1 * p3) >> 8) + ((q1 * p2) << 12)` (R160). -/
def stage2Q5 (c : Coefficients) (q1 : DWord) : DWord :=
  asr (q1 * q1 * sext 64 c.p3) 8 + shl (q1 * sext 64 c.p2) 12

/-- The denominator `d = (((1 << 47) + q5) * p1) >> 33` (R160). -/
def stage2D (c : Coefficients) (tf : Word) : DWord :=
  asr ((shl 1 47 + stage2Q5 c (stage2Q1 tf)) * zext 64 c.p1) 33

/-- `pa = (((p0 << 31) - q4) * 3125) / d` with `p0 = 1048576 - rp` at 64 bits (R162, D31). -/
def stage2Pa (c : Coefficients) (tf rp : Word) : DWord :=
  divT ((shl (1048576 - sext 64 rp) 31 - stage2Q4 c (stage2Q1 tf)) * 3125) (stage2D c tf)

/-- `c1 = (p9 * (pa >> 13) * (pa >> 13)) >> 25` (R163). -/
def stage2C1 (c : Coefficients) (pa : DWord) : DWord := asr (sext 64 c.p9 * asr pa 13 * asr pa 13) 25

/-- `c2 = (p8 * pa) >> 19` (R163). -/
def stage2C2 (c : Coefficients) (pa : DWord) : DWord := asr (sext 64 c.p8 * pa) 19

/-- `pb = ((pa + c1 + c2) >> 8) + (p7 << 4)` (R164). -/
def stage2Pb (c : Coefficients) (pa : DWord) : DWord :=
  asr (pa + stage2C1 c pa + stage2C2 c pa) 8 + shl (sext 64 c.p7) 4

/-- `p_out`: 0 by the sentinel when the denominator is zero (R161), else `trunc_32(pb)` (R164). -/
def pOutOf (c : Coefficients) (tf rp : Word) : Word :=
  if pZeroFlag (stage2D c tf) then 0 else trunc 32 (stage2Pb c (stage2Pa c tf rp))

/-! ## Stage 3: humidity, signed 32 bits (R165) -/

/-- `x = t_fine - 76800` (R166). -/
def stage3X (tf : Word) : Word := tf - 76800

/-- `u = ((((h << 14) - (e4 << 20)) - (e5 * x)) + 16384) >> 15` (R167). -/
def stage3U (c : Coefficients) (tf rh : Word) : Word :=
  asr (shl rh 14 - shl (sext 32 c.h4) 20 - sext 32 c.h5 * stage3X tf + 16384) 15

/-- `w1 = (x * e6) >> 10` (R168). -/
def stage3W1 (c : Coefficients) (tf : Word) : Word := asr (stage3X tf * sext 32 c.h6) 10

/-- `w2 = ((x * e3) >> 11) + 32768` (R168). -/
def stage3W2 (c : Coefficients) (tf : Word) : Word := asr (stage3X tf * zext 32 c.h3) 11 + 32768

/-- `w3 = ((w1 * w2) >> 10) + 2097152` (R168). -/
def stage3W3 (c : Coefficients) (tf : Word) : Word := asr (stage3W1 c tf * stage3W2 c tf) 10 + 2097152

/-- `w4 = ((w3 * e2) + 8192) >> 14` (R168). -/
def stage3W4 (c : Coefficients) (tf : Word) : Word := asr (stage3W3 c tf * sext 32 c.h2 + 8192) 14

/-- `v0 = u * w4` (R169). -/
def stage3V0 (c : Coefficients) (tf rh : Word) : Word := stage3U c tf rh * stage3W4 c tf

/-- The `H1` correction of `v0`: `v1 = v0 - (((((v0 >> 15) * (v0 >> 15)) >> 7) * e1) >> 4)` (R170). -/
def stage3Correct (c : Coefficients) (v0 : Word) : Word :=
  v0 - asr (asr (asr v0 15 * asr v0 15) 7 * zext 32 c.h1) 4

/-- `v1`, the humidity value before the clamps (R170). -/
def stage3V1 (c : Coefficients) (tf rh : Word) : Word := stage3Correct c (stage3V0 c tf rh)

/-- The lower clamp `v2` (R171). -/
def clampLow (v1 : Word) : Word := if hClampLoFlag v1 then 0 else v1

/-- The upper clamp `v3`, after the lower one (R172, R173). -/
def clampHigh (v2 : Word) : Word := if hClampHiFlag v2 then 419430400 else v2

/-- `h_out = zext_32(v3 >> 12)` (R174). -/
def hOutOf (v1 : Word) : Word := asr (clampHigh (clampLow v1)) 12

/-! ## The command -/

/-- The seven writes of `COMPENSATE`, all computed from `RAW_*` and the coefficient file; Stages 2 and 3 use the `t_fine`
Stage 1 just produced (R150). -/
def compensate (b : Block) : Block :=
  { b with
    tFine := tFineOf b.coef b.rawT
    tOut := tOutOf (tFineOf b.coef b.rawT)
    pOut := pOutOf b.coef (tFineOf b.coef b.rawT) b.rawP
    hOut := hOutOf (stage3V1 b.coef (tFineOf b.coef b.rawT) b.rawH)
    status :=
      { b.status with
        pZero := pZeroFlag (stage2D b.coef (tFineOf b.coef b.rawT))
        hClampLo := hClampLoFlag (stage3V1 b.coef (tFineOf b.coef b.rawT) b.rawH)
        hClampHi := hClampHiFlag (clampLow (stage3V1 b.coef (tFineOf b.coef b.rawT) b.rawH)) } }

/-- `COMPENSATE` (R150): total, raises no error (R175). -/
def execCompensate (s : State) : Result := .next (s.withBlock (compensate s.block))

end Sys2Proof.Machine
end

