-- ==== Sys2Proof/Machine/RegisterAccess.lean ====
section
/-! DEFINITION. The register access family (spec/40_register_access.md): the meaning of `NOP`, of the plain register
writes and of the 34 register reads. -/

namespace Sys2Proof.Machine

/-- `NOP`: no state changes (R110). -/
def execNop (s : State) : Result := .next s

/-- `WR STATUS, v`: clears the sticky bits `v` names (R108). -/
def execWrStatus (data : Word) (s : State) : Result :=
  .next (s.withBlock { s.block with status := s.block.status.clearSticky data })

/-- `WR RAW_T, v` (R102): every 32-bit value is accepted. -/
def execWrRawT (data : Word) (s : State) : Result := .next (s.withBlock { s.block with rawT := data })

/-- `WR RAW_P, v` (R103): every 32-bit value is accepted. -/
def execWrRawP (data : Word) (s : State) : Result := .next (s.withBlock { s.block with rawP := data })

/-- `WR RAW_H, v` (R104): every 32-bit value is accepted. -/
def execWrRawH (data : Word) (s : State) : Result := .next (s.withBlock { s.block with rawH := data })

/-- `WR ADC_T, v` (R105): the bits above the field are dropped without error. -/
def execWrAdcT (data : Word) (s : State) : Result :=
  .next (s.withBlock { s.block with adcT := adcTOfWord data })

/-- `WR ADC_P, v` (R106): the bits above the field are dropped without error. -/
def execWrAdcP (data : Word) (s : State) : Result :=
  .next (s.withBlock { s.block with adcP := adcPOfWord data })

/-- `WR ADC_H, v` (R107): the bits above the field are dropped without error. -/
def execWrAdcH (data : Word) (s : State) : Result :=
  .next (s.withBlock { s.block with adcH := adcHOfWord data })

/-- `RD <reg>`: the value is returned and no state of the block changes (R100, R63). -/
def readAccess (r : Reg) (s : State) : Result := .next (s.respond (readReg r s.block))

/-- `RD CMD` (R100). -/
def execRdCmd (s : State) : Result := readAccess .cmd s

/-- `RD STATUS` (R100). -/
def execRdStatus (s : State) : Result := readAccess .status s

/-- `RD CAL_WR` (R100). -/
def execRdCalWr (s : State) : Result := readAccess .calWr s

/-- `RD CAL_ERR` (R100). -/
def execRdCalErr (s : State) : Result := readAccess .calErr s

/-- `RD CAL_VLD_A` (R100). -/
def execRdCalVldA (s : State) : Result := readAccess .calVldA s

/-- `RD CAL_VLD_B` (R100). -/
def execRdCalVldB (s : State) : Result := readAccess .calVldB s

/-- `RD RAW_T` (R100). -/
def execRdRawT (s : State) : Result := readAccess .rawT s

/-- `RD RAW_P` (R100). -/
def execRdRawP (s : State) : Result := readAccess .rawP s

/-- `RD RAW_H` (R100). -/
def execRdRawH (s : State) : Result := readAccess .rawH s

/-- `RD ADC_T` (R100). -/
def execRdAdcT (s : State) : Result := readAccess .adcT s

/-- `RD ADC_P` (R100). -/
def execRdAdcP (s : State) : Result := readAccess .adcP s

/-- `RD ADC_H` (R100). -/
def execRdAdcH (s : State) : Result := readAccess .adcH s

/-- `RD T_FINE` (R100). -/
def execRdTFine (s : State) : Result := readAccess .tFine s

/-- `RD T_OUT` (R100). -/
def execRdTOut (s : State) : Result := readAccess .tOut s

/-- `RD P_OUT` (R100). -/
def execRdPOut (s : State) : Result := readAccess .pOut s

/-- `RD H_OUT` (R100). -/
def execRdHOut (s : State) : Result := readAccess .hOut s

/-- `RD COEF_T1` (R100, R44). -/
def execRdCoefT1 (s : State) : Result := readAccess .coefT1 s

/-- `RD COEF_T2` (R100, R44). -/
def execRdCoefT2 (s : State) : Result := readAccess .coefT2 s

/-- `RD COEF_T3` (R100, R44). -/
def execRdCoefT3 (s : State) : Result := readAccess .coefT3 s

/-- `RD COEF_P1` (R100, R44). -/
def execRdCoefP1 (s : State) : Result := readAccess .coefP1 s

/-- `RD COEF_P2` (R100, R44). -/
def execRdCoefP2 (s : State) : Result := readAccess .coefP2 s

/-- `RD COEF_P3` (R100, R44). -/
def execRdCoefP3 (s : State) : Result := readAccess .coefP3 s

/-- `RD COEF_P4` (R100, R44). -/
def execRdCoefP4 (s : State) : Result := readAccess .coefP4 s

/-- `RD COEF_P5` (R100, R44). -/
def execRdCoefP5 (s : State) : Result := readAccess .coefP5 s

/-- `RD COEF_P6` (R100, R44). -/
def execRdCoefP6 (s : State) : Result := readAccess .coefP6 s

/-- `RD COEF_P7` (R100, R44). -/
def execRdCoefP7 (s : State) : Result := readAccess .coefP7 s

/-- `RD COEF_P8` (R100, R44). -/
def execRdCoefP8 (s : State) : Result := readAccess .coefP8 s

/-- `RD COEF_P9` (R100, R44). -/
def execRdCoefP9 (s : State) : Result := readAccess .coefP9 s

/-- `RD COEF_H1` (R100, R44). -/
def execRdCoefH1 (s : State) : Result := readAccess .coefH1 s

/-- `RD COEF_H2` (R100, R44). -/
def execRdCoefH2 (s : State) : Result := readAccess .coefH2 s

/-- `RD COEF_H3` (R100, R44). -/
def execRdCoefH3 (s : State) : Result := readAccess .coefH3 s

/-- `RD COEF_H4` (R100, R44). -/
def execRdCoefH4 (s : State) : Result := readAccess .coefH4 s

/-- `RD COEF_H5` (R100, R44). -/
def execRdCoefH5 (s : State) : Result := readAccess .coefH5 s

/-- `RD COEF_H6` (R100, R44). -/
def execRdCoefH6 (s : State) : Result := readAccess .coefH6 s

end Sys2Proof.Machine
end

