-- ==== Sys2Proof/Machine/Unpack.lean ====
section
/-! DEFINITION. The raw-reading unpack family (spec/43_raw_unpack.md): `UNPACK_RAW`. -/

namespace Sys2Proof.Machine

/-- `Assemble20(w) = {w[23:16], w[15:8], w[7:4]}`: big-endian, the low nibble of `XLSB` trimmed (R191, R192). -/
def assemble20 (v : BitVec 24) : BitVec 20 := adcMsb v ++ adcLsb v ++ field (adcXlsb v) 4 4

/-- `Assemble16(w) = {w[15:8], w[7:0]}` (R193). -/
def assemble16 (v : BitVec 16) : BitVec 16 := adcHMsb v ++ adcHLsb v

/-- `Extend(v, n)` under `UNPACK_EXT` (R194). -/
def extendRaw (ext : UnpackExt) {n : Nat} (v : BitVec n) : Word :=
  match ext with
  | .zero => zext 32 v
  | .sign => sext 32 v

/-- The three writes of `UNPACK_RAW` under a setting of `UNPACK_EXT` (R190). -/
def unpackRawWith (ext : UnpackExt) (b : Block) : Block :=
  { b with
    rawT := extendRaw ext (assemble20 b.adcT)
    rawP := extendRaw ext (assemble20 b.adcP)
    rawH := extendRaw ext (assemble16 b.adcH) }

/-- `UNPACK_RAW` (R190), under the spec's setting of `UNPACK_EXT` (R6; log 9). -/
def execUnpackRaw (s : State) : Result := .next (s.withBlock (unpackRawWith Config.unpackExt s.block))

end Sys2Proof.Machine
end

