-- ==== Sys2Proof/Machine/Dispatch.lean ====
section
/-! DEFINITION. One arm per instruction, each a direct call of its meaning. -/

namespace Sys2Proof.Machine

/-- The meaning of every instruction. -/
def exec (i : Instr) (s : State) : Host.Outcome State Fault Refusal :=
  match i with
  | .nop => Sys2Proof.Machine.execNop s
  | .calBegin => Sys2Proof.Machine.execCalBegin s
  | .calLoad => Sys2Proof.Machine.execCalLoad s
  | .compensate => Sys2Proof.Machine.execCompensate s
  | .unpackRaw => Sys2Proof.Machine.execUnpackRaw s
  | .wrStatus data => Sys2Proof.Machine.execWrStatus data s
  | .wrCalWr data => Sys2Proof.Machine.execWrCalWr data s
  | .wrCalErr data => Sys2Proof.Machine.execWrCalErr data s
  | .wrRawT data => Sys2Proof.Machine.execWrRawT data s
  | .wrRawP data => Sys2Proof.Machine.execWrRawP data s
  | .wrRawH data => Sys2Proof.Machine.execWrRawH data s
  | .wrAdcT data => Sys2Proof.Machine.execWrAdcT data s
  | .wrAdcP data => Sys2Proof.Machine.execWrAdcP data s
  | .wrAdcH data => Sys2Proof.Machine.execWrAdcH data s
  | .rdCmd => Sys2Proof.Machine.execRdCmd s
  | .rdStatus => Sys2Proof.Machine.execRdStatus s
  | .rdCalWr => Sys2Proof.Machine.execRdCalWr s
  | .rdCalErr => Sys2Proof.Machine.execRdCalErr s
  | .rdCalVldA => Sys2Proof.Machine.execRdCalVldA s
  | .rdCalVldB => Sys2Proof.Machine.execRdCalVldB s
  | .rdRawT => Sys2Proof.Machine.execRdRawT s
  | .rdRawP => Sys2Proof.Machine.execRdRawP s
  | .rdRawH => Sys2Proof.Machine.execRdRawH s
  | .rdAdcT => Sys2Proof.Machine.execRdAdcT s
  | .rdAdcP => Sys2Proof.Machine.execRdAdcP s
  | .rdAdcH => Sys2Proof.Machine.execRdAdcH s
  | .rdTFine => Sys2Proof.Machine.execRdTFine s
  | .rdTOut => Sys2Proof.Machine.execRdTOut s
  | .rdPOut => Sys2Proof.Machine.execRdPOut s
  | .rdHOut => Sys2Proof.Machine.execRdHOut s
  | .rdCoefT1 => Sys2Proof.Machine.execRdCoefT1 s
  | .rdCoefT2 => Sys2Proof.Machine.execRdCoefT2 s
  | .rdCoefT3 => Sys2Proof.Machine.execRdCoefT3 s
  | .rdCoefP1 => Sys2Proof.Machine.execRdCoefP1 s
  | .rdCoefP2 => Sys2Proof.Machine.execRdCoefP2 s
  | .rdCoefP3 => Sys2Proof.Machine.execRdCoefP3 s
  | .rdCoefP4 => Sys2Proof.Machine.execRdCoefP4 s
  | .rdCoefP5 => Sys2Proof.Machine.execRdCoefP5 s
  | .rdCoefP6 => Sys2Proof.Machine.execRdCoefP6 s
  | .rdCoefP7 => Sys2Proof.Machine.execRdCoefP7 s
  | .rdCoefP8 => Sys2Proof.Machine.execRdCoefP8 s
  | .rdCoefP9 => Sys2Proof.Machine.execRdCoefP9 s
  | .rdCoefH1 => Sys2Proof.Machine.execRdCoefH1 s
  | .rdCoefH2 => Sys2Proof.Machine.execRdCoefH2 s
  | .rdCoefH3 => Sys2Proof.Machine.execRdCoefH3 s
  | .rdCoefH4 => Sys2Proof.Machine.execRdCoefH4 s
  | .rdCoefH5 => Sys2Proof.Machine.execRdCoefH5 s
  | .rdCoefH6 => Sys2Proof.Machine.execRdCoefH6 s

end Sys2Proof.Machine
end

