-- ==== Sys2Proof/Machine/Step.lean ====
section
/-! DEFINITION. One step: the next event the port delivers is carried out whole (spec/20_memory.md R62, R72). The block
fetches nothing (10_state.md R21): the next instruction is the next access in `port.pending`. -/

namespace Sys2Proof.Machine

/-- One transaction: a row of the opcode table runs, any other word takes its error outcome (R92). -/
def runTransaction (x : Transaction) (s : State) : Host.Outcome State Fault Refusal :=
  match decode x with
  | .ok i => exec i s
  | .error e => .next (takeRejection e s)

/-- One step (R21, R62, R72, R220). -/
def step (s : State) : Host.Outcome State Fault Refusal :=
  match s.port.pending with
  | [] => .next (idle s)
  | .reset :: rest => .next (applyReset (s.withPending rest))
  | .access x :: rest => runTransaction x (s.withPending rest)

/-- `s` with the transaction of a table word as the next event the port delivers; the events that were pending follow it
(log 1, log 15). -/
def State.withFetchWord (s : State) (nbits w : Nat) : State :=
  s.withPending (.access (BitVec.ofNat 41 (w % 2 ^ nbits)) :: s.port.pending)

end Sys2Proof.Machine
end

