-- ==== Sys2Proof/Machine/Readings.lean ====
section
/-! DEFINITION. What the outputs mean to the host (spec/42_compensation.md R176, 00_scope.md R14): the exact physical
values as rationals, and their floating-point rendering by the OPEN parameter `FLOAT_RENDER`. No step reads these. -/

namespace Sys2Proof.Machine

/-- The denominator of the temperature: `T_OUT` counts 0.01 °C (R14, R176). -/
def temperatureUnit : Nat := 100

/-- The denominator of the pressure: hPa = `P_OUT / 25600` (R14, R176). -/
def pressureUnit : Nat := 25600

/-- The denominator of the humidity: `H_OUT` counts 1/1024 %RH (R14, R176). -/
def humidityUnit : Nat := 1024

/-- Temperature in °C, `T_OUT` read as `s32` (R176). -/
def temperatureCelsius (b : Block) : Rat := (b.tOut.toInt : Rat) / temperatureUnit

/-- Pressure in hPa, `P_OUT` read as `u32` (R176). -/
def pressureHPa (b : Block) : Rat := (b.pOut.toNat : Rat) / pressureUnit

/-- Humidity in %RH, `H_OUT` read as `u32` (R176). -/
def humidityPercent (b : Block) : Rat := (b.hOut.toNat : Rat) / humidityUnit

/-- The floating-point temperature a host presents (R176; log 11). -/
def hostTemperature (b : Block) : Nat := Config.floatRender b.tOut.toInt temperatureUnit

/-- The floating-point pressure a host presents (R176; log 11). -/
def hostPressure (b : Block) : Nat := Config.floatRender (b.pOut.toNat : Int) pressureUnit

/-- The floating-point humidity a host presents (R176; log 11). -/
def hostHumidity (b : Block) : Nat := Config.floatRender (b.hOut.toNat : Int) humidityUnit

end Sys2Proof.Machine
end

