-- ==== Sys2Proof/Safety.lean ====
section
/-! DEFINITION. What counts as a safe run: every step answers a next state (spec/20_memory.md R62, R74), and the state
keeps what the spec says is always true of it. -/

namespace Sys2Proof.Machine

/-- `H4` or `H5` holds a value in [-2048, 2047] (R43). -/
def in12Bits (v : BitVec 16) : Bool := decide (-2048 ≤ v.toInt) && decide (v.toInt ≤ 2047)

/-- What the spec says is always true of the block's state.
- `stage`: the staging buffer is in canonical form, within offsets 0 to 32 (R36).
- `unloaded`: while `CAL_LOADED` is 0 the coefficient registers hold their reset value (R25).
- `h4Range`, `h5Range`: the 12-bit ranges (R43).
- `hOutRange`: `H_OUT` is in [0, 102400] (R42).
- `clampsExclude`: the clamp flags are never both 1 (R29).
- `clampedLow`, `clampedHigh`: a clamp flag goes with its boundary value (R171, R172, R174).
- `sentinel`: `P_ZERO` goes with `P_OUT = 0` (R161). -/
structure Block.Inv (b : Block) : Prop where
  stage : b.stage.wf = true
  unloaded : b.status.calLoaded = false → b.coef = Coefficients.zero
  h4Range : in12Bits b.coef.h4 = true
  h5Range : in12Bits b.coef.h5 = true
  hOutRange : b.hOut.toNat ≤ 102400
  clampsExclude : ¬(b.status.hClampLo = true ∧ b.status.hClampHi = true)
  clampedLow : b.status.hClampLo = true → b.hOut = 0
  clampedHigh : b.status.hClampHi = true → b.hOut = 102400
  sentinel : b.status.pZero = true → b.pOut = 0

/-- The invariant of the machine. -/
def State.Inv (s : State) : Prop := s.block.Inv

/-- A state from which the next step answers a next state. -/
def State.Completes (s : State) : Prop := ∃ t, step s = .next t

end Sys2Proof.Machine
end

