-- ==== Sys2Proof/Certificates/Slice0/Obligations.lean ====
section
/-! DEFINITION. The statements for the provers, from the numbered rules of spec/. Each is about every state unless its
docstring says otherwise; a result written as one record update says its frame too: what the update does not name is
unchanged. -/

open Sys2Proof Sys2Proof.Machine

namespace Sys2Proof.Reference

/-! An integer transcription of spec/42_compensation.md, written from the rules and not from the machine: exact integers,
reduced to the rule's width after every operation (00_scope.md R9), `a >> k` as a floor division. -/

/-- An integer reduced modulo 2^32, read as `s32` (R9). -/
def s32 (z : Int) : Int := Int.bmod z (2 ^ 32)

/-- An integer reduced modulo 2^64, read as `s64` (R9). -/
def s64 (z : Int) : Int := Int.bmod z (2 ^ 64)

/-- `t_fine` from `RAW_T` (R151 to R154). -/
def tFine (t1 t2 t3 rt : Int) : Int :=
  let a := s32 (rt / 2 ^ 3 - s32 (t1 * 2))
  let var1 := s32 (a * t2) / 2 ^ 11
  let b := s32 (rt / 2 ^ 4 - t1)
  let var2 := s32 (s32 (b * b) / 2 ^ 12 * t3) / 2 ^ 14
  s32 (var1 + var2)

/-- `t_out` (R155). -/
def tOut (tf : Int) : Int := s32 (s32 (tf * 5) + 128) / 2 ^ 8

/-- `q4` (R158, R159). -/
def q4 (p4 p5 p6 tf : Int) : Int :=
  let q1 := s64 (tf - 128000)
  let q2 := s64 (s64 (q1 * q1) * p6)
  let q3 := s64 (q2 + s64 (s64 (q1 * p5) * 2 ^ 17))
  s64 (q3 + s64 (p4 * 2 ^ 35))

/-- The denominator `d` (R158, R160). -/
def denominator (p1 p2 p3 tf : Int) : Int :=
  let q1 := s64 (tf - 128000)
  let q5 := s64 (s64 (s64 (q1 * q1) * p3) / 2 ^ 8 + s64 (s64 (q1 * p2) * 2 ^ 12))
  s64 (s64 (2 ^ 47 + q5) * p1) / 2 ^ 33

/-- `pb` for a denominator that is not zero (R162 to R164); the division truncates toward zero. -/
def pb (p7 p8 p9 rp q4 d : Int) : Int :=
  let p0 := s64 (1048576 - rp)
  let pa := s64 (Int.tdiv (s64 (s64 (s64 (p0 * 2 ^ 31) - q4) * 3125)) d)
  let c1 := s64 (s64 (p9 * (pa / 2 ^ 13)) * (pa / 2 ^ 13)) / 2 ^ 25
  let c2 := s64 (p8 * pa) / 2 ^ 19
  s64 (s64 (s64 (pa + c1) + c2) / 2 ^ 8 + s64 (p7 * 2 ^ 4))

/-- `v1`, the humidity value before the clamps (R165 to R170). -/
def v1 (h1 h2 h3 h4 h5 h6 tf rh : Int) : Int :=
  let x := s32 (tf - 76800)
  let u := s32 (s32 (s32 (s32 (rh * 2 ^ 14) - s32 (h4 * 2 ^ 20)) - s32 (h5 * x)) + 16384) / 2 ^ 15
  let w1 := s32 (x * h6) / 2 ^ 10
  let w2 := s32 (s32 (x * h3) / 2 ^ 11 + 32768)
  let w3 := s32 (s32 (w1 * w2) / 2 ^ 10 + 2097152)
  let w4 := s32 (s32 (w3 * h2) + 8192) / 2 ^ 14
  let v0 := s32 (u * w4)
  s32 (v0 - s32 (s32 (v0 / 2 ^ 15 * (v0 / 2 ^ 15)) / 2 ^ 7 * h1) / 2 ^ 4)

/-- `h_out` (R171 to R174). -/
def hOut (v1 : Int) : Int := min (max v1 0) 419430400 / 2 ^ 12

/-- `t_fine` of the block's inputs. -/
def tFineOf (b : Block) : Int := tFine b.coef.t1.toNat b.coef.t2.toInt b.coef.t3.toInt b.rawT.toInt

/-- `d` of the block's inputs. -/
def dOf (b : Block) : Int := denominator b.coef.p1.toNat b.coef.p2.toInt b.coef.p3.toInt (tFineOf b)

/-- `pb` of the block's inputs. -/
def pbOf (b : Block) : Int :=
  pb b.coef.p7.toInt b.coef.p8.toInt b.coef.p9.toInt b.rawP.toInt
    (q4 b.coef.p4.toInt b.coef.p5.toInt b.coef.p6.toInt (tFineOf b)) (dOf b)

/-- `v1` of the block's inputs. -/
def v1Of (b : Block) : Int :=
  v1 b.coef.h1.toNat b.coef.h2.toInt b.coef.h3.toNat b.coef.h4.toInt b.coef.h5.toInt b.coef.h6.toInt (tFineOf b)
    b.rawH.toInt

/-! The classes of transactions, in the numbers of spec/30_encoding.md R92 and 60_exceptions.md R204. -/

/-- `ADDR[1:0] != 0`, or `ADDR` is a reserved offset: a multiple of 4 from 0x88 up (R46, R65). -/
abbrev badOffset (addr : Nat) : Prop := addr % 4 ≠ 0 ∨ 0x88 ≤ addr

/-- The offsets of the read-only registers: `CAL_VLD_A`, `CAL_VLD_B`, and `T_FINE` to `COEF_H6` (R22). -/
abbrev readOnlyOffset (addr : Nat) : Prop :=
  addr % 4 = 0 ∧ (addr = 0x10 ∨ addr = 0x14 ∨ (0x30 ≤ addr ∧ addr ≤ 0x84))

/-- A transaction that is an illegal access, by the four causes of R204. -/
abbrev illegalAccess (x : Transaction) : Prop :=
  badOffset (txAddr x).toNat ∨
    (txIsWrite x = true ∧ readOnlyOffset (txAddr x).toNat) ∨
    (txIsWrite x = true ∧ (txAddr x).toNat = 0x08 ∧ 32 < (txData x).toNat / 256 % 64)

/-- A transaction that is a WR to `CMD` of an illegal command word (R83). -/
abbrev illegalCommand (x : Transaction) : Prop :=
  txIsWrite x = true ∧ (txAddr x).toNat = 0 ∧ ((txData x).toNat / 16 ≠ 0 ∨ 5 ≤ (txData x).toNat % 16)

/-- The transaction `WR addr, w` (R80). -/
def wr (addr : Offset) (w : Word) : Transaction := 1#1 ++ addr ++ w

/-- The transaction `RD addr`, with whatever `DATA` (R80: a decoder ignores it). -/
def rd (addr : Offset) (ignored : Word) : Transaction := 0#1 ++ addr ++ ignored

/-- The next event of the port is the access `x`, with `rest` after it. -/
def Delivers (s : State) (x : Transaction) (rest : List PortEvent) : Prop :=
  s.port.pending = .access x :: rest

/-- The next event the port delivers runs the instruction `i`. -/
def Runs (s : State) (i : Instr) : Prop := ∃ x rest, Delivers s x rest ∧ decode x = .ok i

/-- The next event is the reset input. -/
def Resets (s : State) : Prop := ∃ rest, s.port.pending = .reset :: rest

/-- Every byte of the calibration buffer was delivered and no transport error reported (R124). -/
abbrev FetchComplete (b : Block) : Prop :=
  (∀ i < 33, b.vld.getLsbD i = true) ∧ b.calErr.errA = false ∧ b.calErr.errB = false

/-- The events of one fetch of a buffer: `CAL_BEGIN`, 33 `CAL_WR` in offset order, `CAL_LOAD` (R94, R141). -/
def fetchEvents (B : Buffer) : List PortEvent :=
  .access (wr 0x00 1) ::
    ((List.range 33).map fun i => .access (wr 0x08 (BitVec.ofNat 32 (i * 256 + (B i).toNat)))) ++
    [.access (wr 0x00 2)]

end Sys2Proof.Reference

open Sys2Proof.Reference

/-! ## Reset and the step -/

/-- R220: when reset is applied, every register reads 0, every staging byte is 0x00, every valid bit and every coefficient
field is 0, whatever the state was. The queue behind the event and the values already read stay (log 4, the model's
choice). -/
def Obligations.ResetEventClearsTheBlock : Prop :=
  ∀ (s : State) (rest : List PortEvent), s.port.pending = .reset :: rest →
    ∃ t, step s = .next t ∧ (∀ r, readReg r t.block = 0) ∧ (∀ a, t.block.stage.read a = 0) ∧ t.block.vld = 0 ∧
      t.block.coef = ⟨0, 0, 0, 0, 0, 0, 0, 0, 0, 0, 0, 0, 0, 0, 0, 0, 0, 0⟩ ∧
      t.port = { pending := rest, reads := s.port.reads }

/-- R222: immediately after reset `STATUS` = 0x00000000; every other register reads 0 too. -/
def Obligations.StatusIsZeroAfterReset : Prop :=
  readReg .status State.reset.block = 0x00000000 ∧ State.reset.block.status.calLoaded = false ∧
    State.reset.block.status.loadFail = false ∧ State.reset.block.status.cmdErr = false ∧
    State.reset.block.status.accErr = false ∧ ∀ r, readReg r State.reset.block = 0

/-- A step runs the decoded instruction of the access the port delivers, after taking the access off the queue; with
nothing to deliver nothing changes (the model's choice, log 3). -/
def Obligations.StepRunsTheDeliveredAccess : Prop :=
  (∀ s x rest i, Delivers s x rest → decode x = .ok i →
    step s = exec i { s with port := { s.port with pending := rest } }) ∧
  ∀ s : State, s.port.pending = [] → step s = .next s

/-- R62, R74: every access completes: no step faults or refuses. With nothing delivered the step idles (log 3). -/
def Obligations.EveryStepCompletes : Prop := ∀ s : State, ∃ t, step s = .next t

/-! ## Encoding -/

/-- A few transactions of 95_test_vectors.md, written out as `K`, `ADDR`, `DATA`, decode to what they stand for. -/
def Obligations.SampleTransactionsDecode : Prop :=
  decode (1#1 ++ 0x00#8 ++ 0x00000003#32) = .ok .compensate ∧
  decode (1#1 ++ 0x00#8 ++ 0x00000002#32) = .ok .calLoad ∧
  decode (1#1 ++ 0x18#8 ++ 0x0007EED0#32) = .ok (.wrRawT 519888) ∧
  decode (1#1 ++ 0x08#8 ++ 0xFFFFE0AA#32) = .ok (.wrCalWr 0xFFFFE0AA) ∧
  decode (0#1 ++ 0x3C#8 ++ 0x00000000#32) = .ok .rdHOut ∧
  decode (0#1 ++ 0x84#8 ++ 0xFFFFFFFF#32) = .ok .rdCoefH6 ∧
  decode (1#1 ++ 0x00#8 ++ 0x00000013#32) = .error .illegalCommand ∧
  decode (1#1 ++ 0x08#8 ++ 0x00002100#32) = .error .calWrOffset

/-- Decoding what the encoder writes gives the instruction back, every operand at every value the encoding admits. -/
def Obligations.DecodeInvertsEncode : Prop := ∀ i : Instr, i.wf = true → decode (encode i) = .ok i

/-- R95: a transaction decodes to an instruction exactly when it has the form of that instruction's row,
`(X & mask) == match`, with the row's constraint (`WR.CAL_WR`: `DATA[13:8] <= 32`) and the free `DATA` as the operand. -/
def Obligations.DecoderIsTheOpcodeTable : Prop :=
  ∀ (x : Transaction) (i : Instr), decode x = .ok i ↔
    x &&& i.row.mask = i.row.pattern ∧
      (∀ w, i = .wrCalWr w → (txData x).toNat / 256 % 64 ≤ 32) ∧
      ∀ w, i.operand = some w → w = txData x

/-- R92: every 41-bit word is exactly one of an illegal access, an illegal command, or one row of the opcode table. -/
def Obligations.EveryTransactionIsOneOfThree : Prop :=
  ∀ x : Transaction,
    ((∃ i, decode x = .ok i) ∨ illegalAccess x ∨ illegalCommand x) ∧
    ¬((∃ i, decode x = .ok i) ∧ illegalAccess x) ∧ ¬((∃ i, decode x = .ok i) ∧ illegalCommand x) ∧
    ¬(illegalAccess x ∧ illegalCommand x)

/-! ## Errors -/

/-- R46, R85, R101 (with R65 the four causes of R204): an illegal access sets `ACC_ERR`; a faulting RD returns 0, a faulting
WR changes nothing else. That the bit is sticky is `FlagWritersAreTheListedOnes`. -/
def Obligations.IllegalAccessSetsAccErr : Prop :=
  ∀ s x rest, Delivers s x rest → illegalAccess x →
    step s = .next
      { block := { s.block with status := { s.block.status with accErr := true } }
        port := { pending := rest, reads := if txIsWrite x then s.port.reads else 0 :: s.port.reads } }

/-- R83 (and the effect of R203): an illegal command word executes nothing, sets `CMD_ERR` and changes no other state. -/
def Obligations.IllegalCommandSetsCmdErr : Prop :=
  ∀ s x rest, Delivers s x rest → illegalCommand x →
    step s = .next
      { block := { s.block with status := { s.block.status with cmdErr := true } }
        port := { pending := rest, reads := s.port.reads } }

/-- R101: a write to a read-only register changes nothing but `ACC_ERR`; the read-only registers are `CAL_VLD_A`,
`CAL_VLD_B`, `T_FINE`, `T_OUT`, `P_OUT`, `H_OUT` and `COEF_*`. -/
def Obligations.WritesToReadOnlyRegistersAreIllegal : Prop :=
  ∀ s (addr : Offset) w rest,
    addr ∈ [0x10, 0x14, 0x30, 0x34, 0x38, 0x3C, 0x40, 0x44, 0x48, 0x4C, 0x50, 0x54, 0x58, 0x5C, 0x60, 0x64, 0x68, 0x6C,
      0x70, 0x74, 0x78, 0x7C, 0x80, 0x84] →
    Delivers s (wr addr w) rest →
    step s = .next
      { block := { s.block with status := { s.block.status with accErr := true } }
        port := { s.port with pending := rest } }

/-! ## Register access -/

/-- R110: `NOP` leaves every state unchanged; its command word is 0. -/
def Obligations.NopChangesNothing : Prop :=
  decode (wr 0x00 0x00000000) = .ok .nop ∧ ∀ s : State, exec .nop s = .next s

/-- R102, R103, R104: a write of `RAW_T`, `RAW_P` or `RAW_H` stores the whole word, whatever it is, and changes nothing
else. -/
def Obligations.RawWritesStoreTheWord : Prop :=
  ∀ (s : State) (v : Word),
    (decode (wr 0x18 v) = .ok (.wrRawT v) ∧ exec (.wrRawT v) s = .next { s with block := { s.block with rawT := v } }) ∧
    (decode (wr 0x1C v) = .ok (.wrRawP v) ∧ exec (.wrRawP v) s = .next { s with block := { s.block with rawP := v } }) ∧
    (decode (wr 0x20 v) = .ok (.wrRawH v) ∧ exec (.wrRawH v) s = .next { s with block := { s.block with rawH := v } })

/-- R105, R106, R107: a write of `ADC_T` or `ADC_P` stores the low 24 bits, of `ADC_H` the low 16, and changes nothing
else; the register then reads as those bits, zero-extended. -/
def Obligations.AdcWritesStoreTheLowBits : Prop :=
  ∀ (s : State) (v : Word),
    (decode (wr 0x24 v) = .ok (.wrAdcT v) ∧
      ∃ t, exec (.wrAdcT v) s = .next t ∧ (readReg .adcT t.block).toNat = v.toNat % 2 ^ 24 ∧
        { t with block := { t.block with adcT := s.block.adcT } } = s) ∧
    (decode (wr 0x28 v) = .ok (.wrAdcP v) ∧
      ∃ t, exec (.wrAdcP v) s = .next t ∧ (readReg .adcP t.block).toNat = v.toNat % 2 ^ 24 ∧
        { t with block := { t.block with adcP := s.block.adcP } } = s) ∧
    (decode (wr 0x2C v) = .ok (.wrAdcH v) ∧
      ∃ t, exec (.wrAdcH v) s = .next t ∧ (readReg .adcH t.block).toNat = v.toNat % 2 ^ 16 ∧
        { t with block := { t.block with adcH := s.block.adcH } } = s)

/-- R108, R89: `WR STATUS` clears `CMD_ERR` when bit 8 of the word is 1 and `ACC_ERR` when bit 9 is, leaves a bit whose
bit of the word is 0, and changes nothing else. -/
def Obligations.StatusWriteClearsStickyBits : Prop :=
  ∀ (s : State) (v : Word), decode (wr 0x04 v) = .ok (.wrStatus v) ∧
    ∃ cmdErr accErr,
      exec (.wrStatus v) s =
        .next { s with block := { s.block with status := { s.block.status with cmdErr := cmdErr, accErr := accErr } } } ∧
      (v.toNat / 2 ^ 8 % 2 = 1 → cmdErr = false) ∧ (v.toNat / 2 ^ 8 % 2 = 0 → cmdErr = s.block.status.cmdErr) ∧
      (v.toNat / 2 ^ 9 % 2 = 1 → accErr = false) ∧ (v.toNat / 2 ^ 9 % 2 = 0 → accErr = s.block.status.accErr)

/-- R100 for the control registers: `CMD` and `CAL_WR` return 0; `STATUS` its flags at bits 0 to 4, 8 and 9; `CAL_ERR` its
two bits; `CAL_VLD_A` the valid bits 0 to 25; `CAL_VLD_B` the valid bits 26 to 32. The value is returned and nothing else
changes. -/
def Obligations.ReadsOfControlRegisters : Prop :=
  ∀ s : State, ∃ status calErr vldA vldB : Word,
    let f := s.block.status
    (exec .rdCmd s = .next { s with port := { s.port with reads := 0 :: s.port.reads } }) ∧
    (exec .rdCalWr s = .next { s with port := { s.port with reads := 0 :: s.port.reads } }) ∧
    (exec .rdStatus s = .next { s with port := { s.port with reads := status :: s.port.reads } } ∧
      status.toNat = f.calLoaded.toNat + 2 * f.loadFail.toNat + 4 * f.pZero.toNat + 8 * f.hClampLo.toNat +
        16 * f.hClampHi.toNat + 256 * f.cmdErr.toNat + 512 * f.accErr.toNat) ∧
    (exec .rdCalErr s = .next { s with port := { s.port with reads := calErr :: s.port.reads } } ∧
      calErr.toNat = s.block.calErr.errA.toNat + 2 * s.block.calErr.errB.toNat) ∧
    (exec .rdCalVldA s = .next { s with port := { s.port with reads := vldA :: s.port.reads } } ∧
      vldA.toNat = s.block.vld.toNat % 2 ^ 26) ∧
    (exec .rdCalVldB s = .next { s with port := { s.port with reads := vldB :: s.port.reads } } ∧
      vldB.toNat = s.block.vld.toNat / 2 ^ 26)

/-- R100 for the input and output registers: the stored bits, zero-extended. The value is returned and nothing else
changes. -/
def Obligations.ReadsOfDataRegisters : Prop :=
  ∀ s : State, ∃ adcT adcP adcH : Word,
    (exec .rdRawT s = .next { s with port := { s.port with reads := s.block.rawT :: s.port.reads } }) ∧
    (exec .rdRawP s = .next { s with port := { s.port with reads := s.block.rawP :: s.port.reads } }) ∧
    (exec .rdRawH s = .next { s with port := { s.port with reads := s.block.rawH :: s.port.reads } }) ∧
    (exec .rdAdcT s = .next { s with port := { s.port with reads := adcT :: s.port.reads } } ∧
      adcT.toNat = s.block.adcT.toNat) ∧
    (exec .rdAdcP s = .next { s with port := { s.port with reads := adcP :: s.port.reads } } ∧
      adcP.toNat = s.block.adcP.toNat) ∧
    (exec .rdAdcH s = .next { s with port := { s.port with reads := adcH :: s.port.reads } } ∧
      adcH.toNat = s.block.adcH.toNat) ∧
    (exec .rdTFine s = .next { s with port := { s.port with reads := s.block.tFine :: s.port.reads } }) ∧
    (exec .rdTOut s = .next { s with port := { s.port with reads := s.block.tOut :: s.port.reads } }) ∧
    (exec .rdPOut s = .next { s with port := { s.port with reads := s.block.pOut :: s.port.reads } }) ∧
    (exec .rdHOut s = .next { s with port := { s.port with reads := s.block.hOut :: s.port.reads } })

/-- An RD of `addr`, whatever its `DATA`, is the instruction `i`, and `exec i` returns a value that is `z` as a signed
number and changes nothing else. -/
def Sys2Proof.Reference.ReturnsInt (addr : Offset) (i : Instr) (s : State) (z : Int) : Prop :=
  (∀ ignored, decode (rd addr ignored) = .ok i) ∧
  ∃ v : Word, exec i s = .next { s with port := { s.port with reads := v :: s.port.reads } } ∧ v.toInt = z

/-- R44: each `COEF_<field>` (offsets 0x40 to 0x84) reads its field widened to 32 bits: `T1`, `P1`, `H1`, `H3`
zero-extended, the others sign-extended. The readback has no side effect. -/
def Obligations.ReadsOfCoefficients : Prop :=
  ∀ s : State, let c := s.block.coef
    ReturnsInt 0x40 .rdCoefT1 s c.t1.toNat ∧ ReturnsInt 0x44 .rdCoefT2 s c.t2.toInt ∧
    ReturnsInt 0x48 .rdCoefT3 s c.t3.toInt ∧ ReturnsInt 0x4C .rdCoefP1 s c.p1.toNat ∧
    ReturnsInt 0x50 .rdCoefP2 s c.p2.toInt ∧ ReturnsInt 0x54 .rdCoefP3 s c.p3.toInt ∧
    ReturnsInt 0x58 .rdCoefP4 s c.p4.toInt ∧ ReturnsInt 0x5C .rdCoefP5 s c.p5.toInt ∧
    ReturnsInt 0x60 .rdCoefP6 s c.p6.toInt ∧ ReturnsInt 0x64 .rdCoefP7 s c.p7.toInt ∧
    ReturnsInt 0x68 .rdCoefP8 s c.p8.toInt ∧ ReturnsInt 0x6C .rdCoefP9 s c.p9.toInt ∧
    ReturnsInt 0x70 .rdCoefH1 s c.h1.toNat ∧ ReturnsInt 0x74 .rdCoefH2 s c.h2.toInt ∧
    ReturnsInt 0x78 .rdCoefH3 s c.h3.toNat ∧ ReturnsInt 0x7C .rdCoefH4 s c.h4.toInt ∧
    ReturnsInt 0x80 .rdCoefH5 s c.h5.toInt ∧ ReturnsInt 0x84 .rdCoefH6 s c.h6.toInt

/-- R63: a read of a legal offset changes no state of the block; a read of a reserved or misaligned offset only sets
`ACC_ERR`; and two reads of a legal offset with no write between them return the same value. -/
def Obligations.ReadsHaveNoSideEffects : Prop :=
  ∀ s (addr : Offset) ignored rest, Delivers s (rd addr ignored) rest →
    ∃ v, (badOffset addr.toNat →
        step s = .next
          { block := { s.block with status := { s.block.status with accErr := true } }
            port := { pending := rest, reads := v :: s.port.reads } }) ∧
      (¬badOffset addr.toNat →
        step s = .next { block := s.block, port := { pending := rest, reads := v :: s.port.reads } } ∧
        ∀ t ignored' rest', t.block = s.block → Delivers t (rd addr ignored') rest' →
          step t = .next { block := t.block, port := { pending := rest', reads := v :: t.port.reads } })

/-- R64: a repeated write of `CAL_ERR`, `RAW_*` or `ADC_*` has no further effect. -/
def Obligations.RepeatedStoresHaveNoFurtherEffect : Prop :=
  ∀ (w : Word) (i : Instr),
    i ∈ [.wrCalErr w, .wrRawT w, .wrRawP w, .wrRawH w, .wrAdcT w, .wrAdcP w, .wrAdcH w] →
    ∀ s, ∃ t, exec i s = .next t ∧ exec i t = .next t

/-! ## Calibration loader -/

/-- R120: `WR CAL_WR` with an offset of 0 to 32 stores the byte at that offset of the staging buffer, sets that valid bit,
and changes nothing else, no other staging byte and no other valid bit among them; with an offset of 33 to 63 it only
sets `ACC_ERR`. -/
def Obligations.CalWrDeliversOneByte : Prop :=
  ∀ (s : State) (w : Word),
    let off := w.toNat / 256 % 64
    (off ≤ 32 →
      decode (wr 0x08 w) = .ok (.wrCalWr w) ∧
      ∃ t, exec (.wrCalWr w) s = .next t ∧ (t.block.stage.read off).toNat = w.toNat % 256 ∧
        (∀ a, a ≠ off → t.block.stage.read a = s.block.stage.read a) ∧
        t.block.vld.getLsbD off = true ∧ (∀ k, k ≠ off → t.block.vld.getLsbD k = s.block.vld.getLsbD k) ∧
        { t with block := { t.block with stage := s.block.stage, vld := s.block.vld } } = s) ∧
    (32 < off →
      exec (.wrCalWr w) s =
        .next { s with block := { s.block with status := { s.block.status with accErr := true } } })

/-- R121, R86: `WR CAL_ERR` stores bit 0 as `ERR_A` and bit 1 as `ERR_B`, and changes nothing else. -/
def Obligations.CalErrWriteReportsErrors : Prop :=
  ∀ (s : State) (w : Word), decode (wr 0x0C w) = .ok (.wrCalErr w) ∧
    ∃ a b, exec (.wrCalErr w) s = .next { s with block := { s.block with calErr := { errA := a, errB := b } } } ∧
      (a = true ↔ w.toNat % 2 = 1) ∧ (b = true ↔ w.toNat / 2 % 2 = 1)

/-- R122: `CAL_BEGIN` clears every valid bit and `CAL_ERR`, and changes nothing else: `STAGE`, `STATUS` and the
coefficients stay. -/
def Obligations.CalBeginDiscardsTheFetch : Prop :=
  decode (wr 0x00 0x00000001) = .ok .calBegin ∧
  ∀ s : State,
    exec .calBegin s = .next { s with block := { s.block with vld := 0, calErr := { errA := false, errB := false } } }

/-- R123, R138: `CAL_LOAD` of a complete, error-free fetch replaces the whole coefficient file by the decoded set, sets
`CAL_LOADED`, clears `LOAD_FAIL`, the valid bits and `CAL_ERR`, and changes nothing else. -/
def Obligations.CalLoadCommitsACompleteFetch : Prop :=
  decode (wr 0x00 0x00000002) = .ok .calLoad ∧
  ∀ s : State, FetchComplete s.block →
    exec .calLoad s = .next
      { s with
        block :=
          { s.block with
            coef := decodeCoefs (fun i => s.block.stage.read i)
            vld := 0
            calErr := { errA := false, errB := false }
            status := { s.block.status with calLoaded := true, loadFail := false } } }

/-- R124, R139, R140: `CAL_LOAD` with a byte missing or a transport error reported sets `LOAD_FAIL` and changes no
coefficient field and not `CAL_LOADED`; the valid bits and `CAL_ERR` are cleared and `STAGE` keeps its bytes. -/
def Obligations.CalLoadFailureKeepsTheSet : Prop :=
  ∀ s : State,
    (∃ i, i < 33 ∧ s.block.vld.getLsbD i = false) ∨ s.block.calErr.errA = true ∨ s.block.calErr.errB = true →
    exec .calLoad s = .next
      { s with
        block :=
          { s.block with
            vld := 0
            calErr := { errA := false, errB := false }
            status := { s.block.status with loadFail := true } } }

/-- R128, R129, R132: the 16-bit fields are little-endian at their buffer offsets; `T1` and `P1` are unsigned, the others
two's complement. -/
def Obligations.DecodeOfSixteenBitFields : Prop :=
  ∀ B : Buffer,
    let c := decodeCoefs B
    let le := fun i => (B i).toNat + 256 * (B (i + 1)).toNat
    let sle := fun i => if 32768 ≤ le i then (le i : Int) - 65536 else (le i : Int)
    c.t1.toNat = le 0 ∧ c.t2.toInt = sle 2 ∧ c.t3.toInt = sle 4 ∧ c.p1.toNat = le 6 ∧ c.p2.toInt = sle 8 ∧
    c.p3.toInt = sle 10 ∧ c.p4.toInt = sle 12 ∧ c.p5.toInt = sle 14 ∧ c.p6.toInt = sle 16 ∧ c.p7.toInt = sle 18 ∧
    c.p8.toInt = sle 20 ∧ c.p9.toInt = sle 22 ∧ c.h2.toInt = sle 26

/-- R131, R133, R134, R135, R136: `H1`, `H3` and `H6` are one byte; `H4` and `H5` are the packed 12-bit fields of bytes 29
to 31, sign-extended from 12 bits. -/
def Obligations.DecodeOfHumidityBytes : Prop :=
  ∀ B : Buffer,
    let c := decodeCoefs B
    let sext12 := fun v : Nat => if 2048 ≤ v then (v : Int) - 4096 else (v : Int)
    c.h1.toNat = (B 25).toNat ∧ c.h3.toNat = (B 28).toNat ∧
    c.h4.toInt = sext12 ((B 29).toNat * 16 + (B 30).toNat % 16) ∧
    c.h5.toInt = sext12 ((B 31).toNat * 16 + (B 30).toNat / 16) ∧
    c.h6.toInt = if 128 ≤ (B 32).toNat then ((B 32).toNat : Int) - 256 else ((B 32).toNat : Int)

/-- R137: `Decode` ignores offset 24, and reads nothing outside offsets 0 to 32; the valid bit of offset 24 still counts:
without it a load fails. -/
def Obligations.DecodeIgnoresTheUnusedByte : Prop :=
  (∀ B B' : Buffer, (∀ i, i < 33 → i ≠ 24 → B i = B' i) → decodeCoefs B = decodeCoefs B') ∧
  (∀ s : State, s.block.vld.getLsbD 24 = false →
    ∃ t, exec .calLoad s = .next t ∧ t.block.status.loadFail = true ∧ t.block.coef = s.block.coef)

/-- R142: `Decode(Encode(coef)) = coef` for every set whose `H4` and `H5` lie in [-2048, 2047], and `Encode(Decode(B))`
equals `B` at every offset except 24, where it is 0. -/
def Obligations.CoefficientCodecRoundTrip : Prop :=
  (∀ c : Coefficients, -2048 ≤ c.h4.toInt → c.h4.toInt ≤ 2047 → -2048 ≤ c.h5.toInt → c.h5.toInt ≤ 2047 →
    decodeCoefs (encodeCoefs c) = c) ∧
  (∀ B : Buffer, ∀ i, i < 33 → i ≠ 24 → encodeCoefs (decodeCoefs B) i = B i) ∧
  ∀ B : Buffer, encodeCoefs (decodeCoefs B) 24 = 0

/-- R141, R94: a whole fetch of any 33 bytes, from any state, commits exactly the set they decode to, sets `CAL_LOADED`,
clears `LOAD_FAIL`, leaves the bytes in `STAGE` and nothing valid, and changes no other register. -/
def Obligations.FetchCommitsTheDeliveredBuffer : Prop :=
  ∀ (B : Buffer) (s : State) (rest : List PortEvent), s.port.pending = fetchEvents B ++ rest →
    ∃ t : State, core.run 35 s = .next t ∧ t.block.coef = decodeCoefs B ∧ t.port.pending = rest ∧
      t.port.reads = s.port.reads ∧ (∀ i < 33, t.block.stage.read i = B i) ∧
      (∀ i, 33 ≤ i → t.block.stage.read i = s.block.stage.read i) ∧
      { t.block with coef := s.block.coef, stage := s.block.stage } =
        { s.block with
          vld := 0
          calErr := { errA := false, errB := false }
          status := { s.block.status with calLoaded := true, loadFail := false } }

/-! ## Who writes what (whole-machine rules) -/

/-- R45, R223: only a successful `CAL_LOAD` and reset write the coefficient register file, and only reset clears
`CAL_LOADED`. -/
def Obligations.CoefficientsChangeOnlyByLoadOrReset : Prop :=
  ∀ s t : State, step s = .next t →
    (t.block.coef ≠ s.block.coef → Resets s ∨ (Runs s .calLoad ∧ FetchComplete s.block)) ∧
    (s.block.status.calLoaded = true → t.block.status.calLoaded = false → Resets s)

/-- R47: the complete list of the writers of each `STATUS` flag. -/
def Obligations.FlagWritersAreTheListedOnes : Prop :=
  ∀ s t : State, step s = .next t →
    let f := s.block.status
    let g := t.block.status
    (g.calLoaded ≠ f.calLoaded → Resets s ∨ (Runs s .calLoad ∧ FetchComplete s.block)) ∧
    (g.loadFail ≠ f.loadFail → Resets s ∨ Runs s .calLoad) ∧
    (g.pZero ≠ f.pZero ∨ g.hClampLo ≠ f.hClampLo ∨ g.hClampHi ≠ f.hClampHi → Resets s ∨ Runs s .compensate) ∧
    (f.cmdErr = false → g.cmdErr = true → ∃ x rest, Delivers s x rest ∧ illegalCommand x) ∧
    (f.accErr = false → g.accErr = true → ∃ x rest, Delivers s x rest ∧ illegalAccess x) ∧
    (f.cmdErr = true → g.cmdErr = false → Resets s ∨ ∃ w, Runs s (.wrStatus w) ∧ w.getLsbD 8 = true) ∧
    (f.accErr = true → g.accErr = false → Resets s ∨ ∃ w, Runs s (.wrStatus w) ∧ w.getLsbD 9 = true)

/-- R47: nothing reads a `STATUS` field except the host's `RD STATUS`: run with another `STATUS`, an instruction writes the
same block outside `STATUS` and returns the same value. -/
def Obligations.OnlyTheStatusReadDependsOnStatus : Prop :=
  ∀ (i : Instr) (s : State) (f : Status), i ≠ .rdStatus →
    ∃ t t', exec i s = .next t ∧ exec i { s with block := { s.block with status := f } } = .next t' ∧
      t'.port = t.port ∧ { t'.block with status := t.block.status } = t.block

/-- R36, R33, R220: only `CAL_WR` and reset write `STAGE` (a byte of it, read as the model reads it); only `CAL_WR`,
`CAL_BEGIN`, `CAL_LOAD` and reset write `VLD`; only `WR.CAL_ERR`, `CAL_BEGIN`, `CAL_LOAD` and reset write `CAL_ERR`. -/
def Obligations.StagingWritersAreTheListedOnes : Prop :=
  ∀ s t : State, step s = .next t →
    (∀ a, t.block.stage.read a ≠ s.block.stage.read a →
      Resets s ∨ ∃ w : Word, Runs s (.wrCalWr w) ∧ w.toNat / 256 % 64 = a) ∧
    (t.block.vld ≠ s.block.vld → Resets s ∨ Runs s .calBegin ∨ Runs s .calLoad ∨ ∃ w, Runs s (.wrCalWr w)) ∧
    (t.block.calErr ≠ s.block.calErr → Resets s ∨ Runs s .calBegin ∨ Runs s .calLoad ∨ ∃ w, Runs s (.wrCalErr w))

/-- R37, R228, R229: only `COMPENSATE` and reset change an output register, so writing the raw inputs or loading a set
does not; only a host write of it, `UNPACK_RAW` and reset change a raw input; only a host write of it and reset change an
`ADC_*` register. -/
def Obligations.InputsAndOutputsChangeOnlyAsListed : Prop :=
  ∀ s t : State, step s = .next t →
    (t.block.tFine ≠ s.block.tFine ∨ t.block.tOut ≠ s.block.tOut ∨ t.block.pOut ≠ s.block.pOut ∨
      t.block.hOut ≠ s.block.hOut → Resets s ∨ Runs s .compensate) ∧
    (t.block.rawT ≠ s.block.rawT → Resets s ∨ Runs s .unpackRaw ∨ ∃ w, Runs s (.wrRawT w)) ∧
    (t.block.rawP ≠ s.block.rawP → Resets s ∨ Runs s .unpackRaw ∨ ∃ w, Runs s (.wrRawP w)) ∧
    (t.block.rawH ≠ s.block.rawH → Resets s ∨ Runs s .unpackRaw ∨ ∃ w, Runs s (.wrRawH w)) ∧
    (t.block.adcT ≠ s.block.adcT → Resets s ∨ ∃ w, Runs s (.wrAdcT w)) ∧
    (t.block.adcP ≠ s.block.adcP → Resets s ∨ ∃ w, Runs s (.wrAdcP w)) ∧
    (t.block.adcH ≠ s.block.adcH → Resets s ∨ ∃ w, Runs s (.wrAdcH w))

/-! ## Compensation engine -/

/-- R9: on `sN` values of one width, 32 or 64, the operators are the exact integer result reduced modulo 2^N; `a >> k` is
`floor (a / 2^k)`; `a / b` truncates toward zero for `b != 0`; `<` and `==` are on the signed values. -/
def Obligations.OperatorsAreExactThenWrapped : Prop :=
  ∀ n, n = 32 ∨ n = 64 → ∀ (a b : BitVec n) (k : Nat), 1 ≤ k → k ≤ 47 →
    (a + b).toInt = (a.toInt + b.toInt).bmod (2 ^ n) ∧ (a - b).toInt = (a.toInt - b.toInt).bmod (2 ^ n) ∧
    (a * b).toInt = (a.toInt * b.toInt).bmod (2 ^ n) ∧ (shl a k).toInt = (a.toInt * 2 ^ k).bmod (2 ^ n) ∧
    (asr a k).toInt = a.toInt / 2 ^ k ∧ (b ≠ 0 → (divT a b).toInt = (a.toInt.tdiv b.toInt).bmod (2 ^ n)) ∧
    (ltS a b = true ↔ a.toInt < b.toInt) ∧ (a = b ↔ a.toInt = b.toInt)

/-- R150 to R174: `COMPENSATE` computes, from every state, what the integer transcription of the three stages computes:
`T_FINE`, `T_OUT`, `P_OUT`, `H_OUT`, `P_ZERO` and the clamp flags, with Stages 2 and 3 on the `t_fine` Stage 1 just
produced. The Stage 2 and 3 formulas are the spec's, marked there as general knowledge (log 13). -/
def Obligations.CompensateMatchesTheIntegerPipeline : Prop :=
  ∀ s : State, ∃ t, exec .compensate s = .next t ∧
    t.block.tFine.toInt = tFineOf s.block ∧
    t.block.tOut.toInt = Reference.tOut (tFineOf s.block) ∧
    (t.block.status.pZero = true ↔ dOf s.block = 0) ∧
    (dOf s.block = 0 → t.block.pOut = 0) ∧
    (dOf s.block ≠ 0 → (t.block.pOut.toNat : Int) = pbOf s.block % 2 ^ 32) ∧
    (t.block.hOut.toNat : Int) = Reference.hOut (v1Of s.block) ∧
    (t.block.status.hClampLo = true ↔ v1Of s.block < 0) ∧
    (t.block.status.hClampHi = true ↔ 419430400 < v1Of s.block)

/-- The worked vector V-E1 (95_test_vectors.md section 2; R150's example), whatever else the state holds. -/
def Obligations.ReferenceVectorVE1 : Prop :=
  ∀ s : State,
    s.block.coef =
      { t1 := 27504, t2 := 26435, t3 := -1000, p1 := 36477, p2 := -10685, p3 := 3024, p4 := 2855, p5 := 140, p6 := -7,
        p7 := 15500, p8 := -14600, p9 := 6000, h1 := 75, h2 := 362, h3 := 0, h4 := 313, h5 := 50, h6 := 30 } →
    s.block.rawT = 519888 → s.block.rawP = 415148 → s.block.rawH = 29000 →
    ∃ t, exec .compensate s = .next t ∧ t.block.tFine = 128422 ∧ t.block.tOut = 2508 ∧ t.block.pOut = 25767233 ∧
      t.block.hOut = 50618 ∧ t.block.status.pZero = false ∧ t.block.status.hClampLo = false ∧
      t.block.status.hClampHi = false

/-- R150: `COMPENSATE` writes `T_FINE`, `T_OUT`, `P_OUT`, `H_OUT`, `P_ZERO` and the two clamp flags, and nothing else:
`RAW_*`, `ADC_*`, the coefficient file, the staging buffer, `CAL_LOADED`, `LOAD_FAIL`, `CMD_ERR` and `ACC_ERR` stay. -/
def Obligations.CompensateWritesOnlyTheOutputs : Prop :=
  decode (wr 0x00 0x00000003) = .ok .compensate ∧
  ∀ s : State, ∃ tFine tOut pOut hOut pZero lo hi,
    exec .compensate s = .next
      { s with
        block :=
          { s.block with
            tFine := tFine, tOut := tOut, pOut := pOut, hOut := hOut
            status := { s.block.status with pZero := pZero, hClampLo := lo, hClampHi := hi } } }

/-- R177: what `COMPENSATE` writes is a function of `RAW_*` and the 18 coefficients alone, whatever else two states hold. -/
def Obligations.CompensateDependsOnlyOnItsInputs : Prop :=
  ∀ s s' : State, s'.block.rawT = s.block.rawT → s'.block.rawP = s.block.rawP → s'.block.rawH = s.block.rawH →
    s'.block.coef = s.block.coef →
    ∃ t t', exec .compensate s = .next t ∧ exec .compensate s' = .next t' ∧ t'.block.tFine = t.block.tFine ∧
      t'.block.tOut = t.block.tOut ∧ t'.block.pOut = t.block.pOut ∧ t'.block.hOut = t.block.hOut ∧
      t'.block.status.pZero = t.block.status.pZero ∧ t'.block.status.hClampLo = t.block.status.hClampLo ∧
      t'.block.status.hClampHi = t.block.status.hClampHi

/-- R160, R161: `P1 = 0` makes the denominator zero for every input, and then `P_OUT = 0` and `P_ZERO = 1`, whatever
`RAW_P` and the other coefficients are. -/
def Obligations.ZeroP1TakesTheSentinel : Prop :=
  ∀ s : State, s.block.coef.p1 = 0 →
    ∃ t, exec .compensate s = .next t ∧ t.block.pOut = 0 ∧ t.block.status.pZero = true

/-- R42, R171, R172, R174, R29: after a `COMPENSATE`, `H_OUT` is in [0, 102400], the clamp flags are not both 1, and a flag
goes with its boundary value. -/
def Obligations.HumidityIsClamped : Prop :=
  ∀ s : State, ∃ t, exec .compensate s = .next t ∧ t.block.hOut.toNat ≤ 102400 ∧
    ¬(t.block.status.hClampLo = true ∧ t.block.status.hClampHi = true) ∧
    (t.block.status.hClampLo = true → t.block.hOut = 0) ∧
    (t.block.status.hClampHi = true → t.block.hOut = 102400)

/-- R173: applying the upper clamp first and the lower one second gives the same value for every `v1`. -/
def Obligations.ClampOrderDoesNotChangeTheValue : Prop :=
  ∀ v1 : Word, clampHigh (clampLow v1) = clampLow (clampHigh v1)

/-- R178: with every coefficient 0, and for every raw triplet, `T_FINE = T_OUT = 0`, `P_OUT = 0` with `P_ZERO = 1`, and
`H_OUT = 0` with both clamp flags 0. -/
def Obligations.AllZeroCoefficientsGiveZeroOutputs : Prop :=
  ∀ s : State, s.block.coef = Coefficients.zero →
    ∃ t, exec .compensate s = .next t ∧ t.block.tFine = 0 ∧ t.block.tOut = 0 ∧ t.block.pOut = 0 ∧
      t.block.status.pZero = true ∧ t.block.hOut = 0 ∧ t.block.status.hClampLo = false ∧
      t.block.status.hClampHi = false

/-- R176, R14: the exact physical values of the outputs are `T_OUT / 100` °C, `P_OUT / 25600` hPa and `H_OUT / 1024` %RH;
after a `COMPENSATE` the humidity is between 0 and 100 %RH (R174). -/
def Obligations.PhysicalValuesOfTheOutputs : Prop :=
  (∀ b : Block, temperatureCelsius b * 100 = b.tOut.toInt ∧ pressureHPa b * 25600 = b.pOut.toNat ∧
    humidityPercent b * 1024 = b.hOut.toNat) ∧
  ∀ s : State, ∃ t, exec .compensate s = .next t ∧ 0 ≤ humidityPercent t.block ∧ humidityPercent t.block ≤ 100

/-! ## Raw-reading unpack -/

/-- R190 to R193, with `UNPACK_EXT = ZERO` (R6): `RAW_T` and `RAW_P` get `(MSB << 12) | (LSB << 4) | (XLSB >> 4)` of their
`ADC_*` register, `RAW_H` gets `(MSB << 8) | LSB`; nothing else changes. -/
def Obligations.UnpackRawAssemblesBigEndian : Prop :=
  let msb := fun v : Nat => v / 65536
  let lsb := fun v : Nat => v / 256 % 256
  let xlsb := fun v : Nat => v % 256
  decode (wr 0x00 0x00000004) = .ok .unpackRaw ∧
  ∀ s : State, ∃ rawT rawP rawH,
    exec .unpackRaw s = .next { s with block := { s.block with rawT := rawT, rawP := rawP, rawH := rawH } } ∧
    (let a := s.block.adcT.toNat; rawT.toNat = msb a * 4096 + lsb a * 16 + xlsb a / 16) ∧
    (let a := s.block.adcP.toNat; rawP.toNat = msb a * 4096 + lsb a * 16 + xlsb a / 16) ∧
    (let a := s.block.adcH.toNat; rawH.toNat = lsb a * 256 + xlsb a)

/-- R194: under `ZERO` the extended value is in [0, 2^n - 1]; under `SIGN` it is the field read as a signed number; where
the field's top bit is 0 the two settings agree. -/
def Obligations.ExtensionSettings : Prop :=
  ∀ n, n = 16 ∨ n = 20 → ∀ v : BitVec n,
    (extendRaw .zero v).toNat = v.toNat ∧
    (extendRaw .sign v).toInt = (if 2 ^ (n - 1) ≤ v.toNat then (v.toNat : Int) - 2 ^ n else (v.toNat : Int)) ∧
    (v.toNat < 2 ^ (n - 1) → extendRaw .sign v = extendRaw .zero v)

/-! ## Invariants -/

/-- The invariant holds at reset. -/
def Obligations.ResetMeetsTheInvariant : Prop := State.reset.Inv

/-- Every step keeps the invariant: the staging buffer in canonical form; no loaded set means the zero set (R25); `H4` and
`H5` in their 12-bit range (R43); `H_OUT` in range (R42); the clamp flags exclusive (R29) and with their boundary values;
`P_ZERO` with `P_OUT = 0` (R161). -/
def Obligations.StepKeepsTheInvariant : Prop :=
  ∀ s t : State, s.Inv → step s = .next t → t.Inv

/-- R62, R232: a run of any number of steps, from any state that meets the invariant, completes, has delivered that many
events in order, and ends in a state that meets the invariant. The queue of events is the model's choice (log 1); steps
beyond its length complete by idling, the model's choice too (log 3). -/
def Obligations.RunsKeepTheInvariantAndComplete : Prop :=
  ∀ (n : Nat) (s : State), s.Inv →
    ∃ t : State, core.run n s = .next t ∧ t.Inv ∧ t.port.pending = s.port.pending.drop n
end

