-- ==== Sys2Proof/Laws/Arith.lean ====
section
/-! SUPPORT. The operators of spec/00_scope.md R9 as exact integers reduced to the width. -/

namespace Sys2Proof.Machine

/-- `a << k` is `a * 2^k` modulo 2^N, for negative `a` too (R9). -/
theorem toInt_shl {n : Nat} (a : BitVec n) (k : Nat) : (shl a k).toInt = (a.toInt * 2 ^ k).bmod (2 ^ n) := by
  rw [shl, BitVec.toInt_shiftLeft, Nat.shiftLeft_eq, BitVec.toInt_eq_toNat_bmod]
  simp

/-- `a >> k` is `floor (a / 2^k)` (R9). -/
theorem toInt_asr {n : Nat} (a : BitVec n) (k : Nat) : (asr a k).toInt = a.toInt / 2 ^ k := by
  rw [asr, BitVec.toInt_sshiftRight, Int.shiftRight_eq_div_pow]
  simp

/-- `a / b` truncates toward zero (R9). -/
theorem toInt_divT {n : Nat} (a b : BitVec n) : (divT a b).toInt = (a.toInt.tdiv b.toInt).bmod (2 ^ n) := by
  rw [divT, BitVec.toInt_sdiv]

/-- `a < b` is on the signed values (R9). -/
theorem ltS_iff {n : Nat} (a b : BitVec n) : ltS a b = true ↔ a.toInt < b.toInt := by
  rw [ltS, BitVec.slt_iff_toInt_lt]

/-- A sign extension keeps the signed value (R8). -/
theorem toInt_sext {N n : Nat} (v : BitVec n) (h : n ≤ N) : (sext N v).toInt = v.toInt :=
  BitVec.toInt_signExtend_of_le h

/-- A zero extension to a wider word keeps the unsigned value, also when read as signed (R8). -/
theorem toInt_zext {N n : Nat} (v : BitVec n) (h : n < N) : (zext N v).toInt = v.toNat := by
  have h1 : (zext N v).toNat = v.toNat := BitVec.toNat_setWidth_of_le (by omega)
  have h2 : v.toNat < 2 ^ n := v.isLt
  have h3 : 2 * 2 ^ n ≤ 2 ^ N := by
    rw [← Nat.pow_succ']; exact Nat.pow_le_pow_right (by decide) h
  rw [BitVec.toInt_eq_toNat_of_lt (by omega), h1]

/-- A zero extension keeps the unsigned value (R8). -/
theorem toNat_zext {N n : Nat} (v : BitVec n) (h : n ≤ N) : (zext N v).toNat = v.toNat :=
  BitVec.toNat_setWidth_of_le h

/-- A field as a number (R7). -/
theorem toNat_field {n : Nat} (v : BitVec n) (lo len : Nat) : (field v lo len).toNat = v.toNat / 2 ^ lo % 2 ^ len := by
  rw [field, BitVec.extractLsb'_toNat, Nat.shiftRight_eq_div_pow]

end Sys2Proof.Machine
end

