-- ==== Sys2Proof/Laws/Memory.lean ====
section
/-! SUPPORT. The staging buffer: reading after a write, and that every operation keeps the canonical form. -/

namespace Sys2Proof.Machine

theorem Memory.read_erase_self (m : Memory) (a : Nat) : (m.erase a).read a = unlistedByte := by
  induction m with
  | nil => rfl
  | cons c rest ih =>
    by_cases h : c.1 = a
    · simpa [Memory.erase, h] using ih
    · simpa [Memory.erase, Memory.read, h] using ih

theorem Memory.read_erase_of_ne (m : Memory) {a k : Nat} (h : k ≠ a) : (m.erase a).read k = m.read k := by
  induction m with
  | nil => rfl
  | cons c rest ih =>
    by_cases hc : c.1 = a
    · have hk : c.1 ≠ k := fun e => h (e.symm.trans hc)
      simpa [Memory.erase, Memory.read, hc, hk, Ne.symm h] using ih
    · by_cases hk : c.1 = k
      · simp [Memory.erase, Memory.read, hk, h]
      · simpa [Memory.erase, Memory.read, hc, hk] using ih

theorem Memory.read_insert_of_ne (m : Memory) {a k : Nat} (v : Byte) (h : k ≠ a) :
    (m.insert a v).read k = m.read k := by
  induction m with
  | nil => simp [Memory.insert, Memory.read, Ne.symm h]
  | cons c rest ih =>
    by_cases hc : c.1 < a
    · simp [Memory.insert, Memory.read, hc, ih]
    · simp [Memory.insert, Memory.read, hc, Ne.symm h]

theorem Memory.read_insert_self (m : Memory) (a : Nat) (v : Byte) : (m.insert a v).read a = v := by
  induction m with
  | nil => simp [Memory.insert, Memory.read]
  | cons c rest ih =>
    by_cases hc : c.1 < a
    · simp [Memory.insert, Memory.read, hc, Nat.ne_of_lt hc, ih]
    · simp [Memory.insert, Memory.read, hc]

/-- Reading what was just written. -/
@[simp] theorem Memory.read_write_self (m : Memory) (a : Nat) (v : Byte) : (m.write a v).read a = v := by
  unfold Memory.write
  split
  · next h => rw [h, Memory.read_erase_self]
  · exact Memory.read_insert_self _ a v

/-- A write leaves every other offset alone. -/
theorem Memory.read_write_of_ne (m : Memory) {a k : Nat} (v : Byte) (h : k ≠ a) :
    (m.write a v).read k = m.read k := by
  unfold Memory.write
  split
  · exact Memory.read_erase_of_ne m h
  · rw [Memory.read_insert_of_ne _ v h, Memory.read_erase_of_ne m h]

/-- The canonical form of a buffer with a first cell. -/
theorem Memory.wf_cons (c : Host.Cell) (m : Memory) :
    Memory.wf (c :: m) = true ↔
      (∀ d ∈ m, c.1 < d.1) ∧ c.1 < Config.calLen ∧ c.2 ≠ unlistedByte ∧ m.wf = true := by
  simp only [Memory.wf, Memory.rising, List.all_cons, Bool.and_eq_true, List.all_eq_true, decide_eq_true_eq,
    bne_iff_ne]
  tauto

@[simp] theorem Memory.wf_nil : Memory.wf [] = true := rfl

theorem Memory.mem_erase {m : Memory} {a : Nat} {d : Host.Cell} : d ∈ m.erase a ↔ d ∈ m ∧ d.1 ≠ a := by
  simp [Memory.erase]

theorem Memory.wf_erase {m : Memory} (a : Nat) (h : m.wf = true) : (m.erase a).wf = true := by
  induction m with
  | nil => rfl
  | cons c rest ih =>
    rw [Memory.wf_cons] at h
    by_cases hc : c.1 = a
    · simpa [Memory.erase, hc] using ih h.2.2.2
    · have he : Memory.erase (c :: rest) a = c :: Memory.erase rest a := by simp [Memory.erase, hc]
      rw [he, Memory.wf_cons]
      exact ⟨fun d hd => h.1 d (Memory.mem_erase.1 hd).1, h.2.1, h.2.2.1, ih h.2.2.2⟩

theorem Memory.mem_insert {m : Memory} {a : Nat} {v : Byte} {d : Host.Cell} (h : d ∈ m.insert a v) :
    d = (a, v) ∨ d ∈ m := by
  induction m with
  | nil => simpa [Memory.insert] using h
  | cons c rest ih =>
    by_cases hc : c.1 < a
    · rw [Memory.insert, if_pos hc, List.mem_cons] at h
      rcases h with h | h
      · exact .inr (by simp [h])
      · exact (ih h).imp id (List.mem_cons_of_mem c)
    · simpa [Memory.insert, hc] using h

theorem Memory.wf_insert {m : Memory} {a : Nat} {v : Byte} (h : m.wf = true) (hm : ∀ d ∈ m, d.1 ≠ a)
    (ha : a < Config.calLen) (hv : v ≠ unlistedByte) : (m.insert a v).wf = true := by
  induction m with
  | nil => exact (Memory.wf_cons (a, v) []).2 ⟨by simp, ha, hv, rfl⟩
  | cons c rest ih =>
    have hr := (Memory.wf_cons c rest).1 h
    by_cases hc : c.1 < a
    · rw [Memory.insert, if_pos hc, Memory.wf_cons]
      refine ⟨fun d hd => ?_, hr.2.1, hr.2.2.1, ih hr.2.2.2 fun d hd => hm d (List.mem_cons_of_mem c hd)⟩
      rcases Memory.mem_insert hd with rfl | hd
      · exact hc
      · exact hr.1 d hd
    · have hac : a < c.1 := by have := hm c (by simp); omega
      rw [Memory.insert, if_neg hc, Memory.wf_cons]
      refine ⟨fun d hd => ?_, ha, hv, h⟩
      rcases List.mem_cons.1 hd with rfl | hd
      · exact hac
      · exact hac.trans (hr.1 d hd)

/-- A write within offsets 0 to 32 keeps the canonical form. -/
theorem Memory.wf_write {m : Memory} {a : Nat} (v : Byte) (h : m.wf = true) (ha : a < Config.calLen) :
    (m.write a v).wf = true := by
  unfold Memory.write
  split
  · exact Memory.wf_erase a h
  · next hv => exact Memory.wf_insert (Memory.wf_erase a h) (fun d hd => (Memory.mem_erase.1 hd).2) ha hv

/-- Two canonical buffers that read alike are the same data. -/
theorem Memory.wf_first_nonzero {c : Host.Cell} {m : Memory} (h : Memory.wf (c :: m) = true) :
    Memory.read (c :: m) c.1 ≠ unlistedByte := by
  simpa [Memory.read] using ((Memory.wf_cons c m).1 h).2.2.1

end Sys2Proof.Machine
end

