-- ==== Sys2Proof/Laws/State.lean ====
section
/-! SUPPORT. The named updates of the state: one fact per field, true by rfl, for simp, so that no later proof unfolds a
record update. -/

namespace Sys2Proof.Machine

@[simp] theorem withBlock_block (s : State) (b : Block) : (s.withBlock b).block = b := rfl
@[simp] theorem withBlock_port (s : State) (b : Block) : (s.withBlock b).port = s.port := rfl
@[simp] theorem withBlock_withBlock (s : State) (b b' : Block) : (s.withBlock b).withBlock b' = s.withBlock b' := rfl
@[simp] theorem withBlock_self (s : State) : s.withBlock s.block = s := rfl

@[simp] theorem respond_block (s : State) (v : Word) : (s.respond v).block = s.block := rfl
@[simp] theorem respond_pending (s : State) (v : Word) : (s.respond v).port.pending = s.port.pending := rfl
@[simp] theorem respond_reads (s : State) (v : Word) : (s.respond v).port.reads = v :: s.port.reads := rfl

@[simp] theorem withPending_block (s : State) (es : List PortEvent) : (s.withPending es).block = s.block := rfl
@[simp] theorem withPending_pending (s : State) (es : List PortEvent) : (s.withPending es).port.pending = es := rfl
@[simp] theorem withPending_reads (s : State) (es : List PortEvent) :
    (s.withPending es).port.reads = s.port.reads := rfl

@[simp] theorem applyReset_block (s : State) : (applyReset s).block = Block.reset := rfl
@[simp] theorem applyReset_port (s : State) : (applyReset s).port = s.port := rfl
@[simp] theorem idle_eq (s : State) : idle s = s := rfl

@[simp] theorem withFetchWord_block (s : State) (nbits w : Nat) : (s.withFetchWord nbits w).block = s.block := rfl
@[simp] theorem withFetchWord_pending (s : State) (nbits w : Nat) :
    (s.withFetchWord nbits w).port.pending = .access (BitVec.ofNat 41 (w % 2 ^ nbits)) :: s.port.pending := rfl

/-! The updates of the block. Each law lists the fields the update leaves unchanged; simp uses every part of it. -/

@[simp] theorem raiseAccessError_fields (b : Block) :
    (raiseAccessError b).calErr = b.calErr ∧ (raiseAccessError b).stage = b.stage ∧
    (raiseAccessError b).vld = b.vld ∧ (raiseAccessError b).rawT = b.rawT ∧ (raiseAccessError b).rawP = b.rawP ∧
    (raiseAccessError b).rawH = b.rawH ∧ (raiseAccessError b).adcT = b.adcT ∧
    (raiseAccessError b).adcP = b.adcP ∧ (raiseAccessError b).adcH = b.adcH ∧
    (raiseAccessError b).tFine = b.tFine ∧ (raiseAccessError b).tOut = b.tOut ∧
    (raiseAccessError b).pOut = b.pOut ∧ (raiseAccessError b).hOut = b.hOut ∧
    (raiseAccessError b).coef = b.coef ∧ (raiseAccessError b).status.calLoaded = b.status.calLoaded ∧
    (raiseAccessError b).status.loadFail = b.status.loadFail ∧
    (raiseAccessError b).status.pZero = b.status.pZero ∧
    (raiseAccessError b).status.hClampLo = b.status.hClampLo ∧
    (raiseAccessError b).status.hClampHi = b.status.hClampHi ∧
    (raiseAccessError b).status.cmdErr = b.status.cmdErr ∧ (raiseAccessError b).status.accErr = true := by
  simp [raiseAccessError]

@[simp] theorem raiseCmdError_fields (b : Block) :
    (raiseCmdError b).calErr = b.calErr ∧ (raiseCmdError b).stage = b.stage ∧ (raiseCmdError b).vld = b.vld ∧
    (raiseCmdError b).rawT = b.rawT ∧ (raiseCmdError b).rawP = b.rawP ∧ (raiseCmdError b).rawH = b.rawH ∧
    (raiseCmdError b).adcT = b.adcT ∧ (raiseCmdError b).adcP = b.adcP ∧ (raiseCmdError b).adcH = b.adcH ∧
    (raiseCmdError b).tFine = b.tFine ∧ (raiseCmdError b).tOut = b.tOut ∧ (raiseCmdError b).pOut = b.pOut ∧
    (raiseCmdError b).hOut = b.hOut ∧ (raiseCmdError b).coef = b.coef ∧
    (raiseCmdError b).status.calLoaded = b.status.calLoaded ∧
    (raiseCmdError b).status.loadFail = b.status.loadFail ∧ (raiseCmdError b).status.pZero = b.status.pZero ∧
    (raiseCmdError b).status.hClampLo = b.status.hClampLo ∧
    (raiseCmdError b).status.hClampHi = b.status.hClampHi ∧ (raiseCmdError b).status.accErr = b.status.accErr ∧
    (raiseCmdError b).status.cmdErr = true := by
  simp [raiseCmdError]

@[simp] theorem raiseTransportFailure_fields (b : Block) :
    (raiseTransportFailure b).calErr = b.calErr ∧ (raiseTransportFailure b).stage = b.stage ∧
    (raiseTransportFailure b).vld = b.vld ∧ (raiseTransportFailure b).rawT = b.rawT ∧
    (raiseTransportFailure b).rawP = b.rawP ∧ (raiseTransportFailure b).rawH = b.rawH ∧
    (raiseTransportFailure b).adcT = b.adcT ∧ (raiseTransportFailure b).adcP = b.adcP ∧
    (raiseTransportFailure b).adcH = b.adcH ∧ (raiseTransportFailure b).tFine = b.tFine ∧
    (raiseTransportFailure b).tOut = b.tOut ∧ (raiseTransportFailure b).pOut = b.pOut ∧
    (raiseTransportFailure b).hOut = b.hOut ∧ (raiseTransportFailure b).coef = b.coef ∧
    (raiseTransportFailure b).status.calLoaded = b.status.calLoaded ∧
    (raiseTransportFailure b).status.pZero = b.status.pZero ∧
    (raiseTransportFailure b).status.hClampLo = b.status.hClampLo ∧
    (raiseTransportFailure b).status.hClampHi = b.status.hClampHi ∧
    (raiseTransportFailure b).status.cmdErr = b.status.cmdErr ∧
    (raiseTransportFailure b).status.accErr = b.status.accErr ∧
    (raiseTransportFailure b).status.loadFail = true := by
  simp [raiseTransportFailure]

@[simp] theorem deliverByte_fields (b : Block) (off : Nat) (v : Byte) :
    (deliverByte b off v).status = b.status ∧ (deliverByte b off v).calErr = b.calErr ∧
    (deliverByte b off v).rawT = b.rawT ∧ (deliverByte b off v).rawP = b.rawP ∧
    (deliverByte b off v).rawH = b.rawH ∧ (deliverByte b off v).adcT = b.adcT ∧
    (deliverByte b off v).adcP = b.adcP ∧ (deliverByte b off v).adcH = b.adcH ∧
    (deliverByte b off v).tFine = b.tFine ∧ (deliverByte b off v).tOut = b.tOut ∧
    (deliverByte b off v).pOut = b.pOut ∧ (deliverByte b off v).hOut = b.hOut ∧
    (deliverByte b off v).coef = b.coef ∧ (deliverByte b off v).stage = b.stage.write off v ∧
    (deliverByte b off v).vld = b.vld ||| 1#33 <<< off := by
  simp [deliverByte]

@[simp] theorem discardDelivered_fields (b : Block) :
    (discardDelivered b).status = b.status ∧ (discardDelivered b).stage = b.stage ∧
    (discardDelivered b).rawT = b.rawT ∧ (discardDelivered b).rawP = b.rawP ∧
    (discardDelivered b).rawH = b.rawH ∧ (discardDelivered b).adcT = b.adcT ∧
    (discardDelivered b).adcP = b.adcP ∧ (discardDelivered b).adcH = b.adcH ∧
    (discardDelivered b).tFine = b.tFine ∧ (discardDelivered b).tOut = b.tOut ∧
    (discardDelivered b).pOut = b.pOut ∧ (discardDelivered b).hOut = b.hOut ∧
    (discardDelivered b).coef = b.coef ∧ (discardDelivered b).vld = 0 ∧
    (discardDelivered b).calErr = CalErr.zero := by
  simp [discardDelivered]

@[simp] theorem commitCoefs_fields (b : Block) :
    (commitCoefs b).calErr = b.calErr ∧ (commitCoefs b).stage = b.stage ∧ (commitCoefs b).vld = b.vld ∧
    (commitCoefs b).rawT = b.rawT ∧ (commitCoefs b).rawP = b.rawP ∧ (commitCoefs b).rawH = b.rawH ∧
    (commitCoefs b).adcT = b.adcT ∧ (commitCoefs b).adcP = b.adcP ∧ (commitCoefs b).adcH = b.adcH ∧
    (commitCoefs b).tFine = b.tFine ∧ (commitCoefs b).tOut = b.tOut ∧ (commitCoefs b).pOut = b.pOut ∧
    (commitCoefs b).hOut = b.hOut ∧ (commitCoefs b).status.pZero = b.status.pZero ∧
    (commitCoefs b).status.hClampLo = b.status.hClampLo ∧ (commitCoefs b).status.hClampHi = b.status.hClampHi ∧
    (commitCoefs b).status.cmdErr = b.status.cmdErr ∧ (commitCoefs b).status.accErr = b.status.accErr ∧
    (commitCoefs b).coef = decodeCoefs b.buffer ∧ (commitCoefs b).status.calLoaded = true ∧
    (commitCoefs b).status.loadFail = false := by
  simp [commitCoefs]

@[simp] theorem compensate_fields (b : Block) :
    (compensate b).calErr = b.calErr ∧ (compensate b).stage = b.stage ∧ (compensate b).vld = b.vld ∧
    (compensate b).rawT = b.rawT ∧ (compensate b).rawP = b.rawP ∧ (compensate b).rawH = b.rawH ∧
    (compensate b).adcT = b.adcT ∧ (compensate b).adcP = b.adcP ∧ (compensate b).adcH = b.adcH ∧
    (compensate b).coef = b.coef ∧ (compensate b).status.calLoaded = b.status.calLoaded ∧
    (compensate b).status.loadFail = b.status.loadFail ∧ (compensate b).status.cmdErr = b.status.cmdErr ∧
    (compensate b).status.accErr = b.status.accErr := by
  simp [compensate]

@[simp] theorem unpackRawWith_fields (ext : UnpackExt) (b : Block) :
    (unpackRawWith ext b).status = b.status ∧ (unpackRawWith ext b).calErr = b.calErr ∧
    (unpackRawWith ext b).stage = b.stage ∧ (unpackRawWith ext b).vld = b.vld ∧
    (unpackRawWith ext b).adcT = b.adcT ∧ (unpackRawWith ext b).adcP = b.adcP ∧
    (unpackRawWith ext b).adcH = b.adcH ∧ (unpackRawWith ext b).tFine = b.tFine ∧
    (unpackRawWith ext b).tOut = b.tOut ∧ (unpackRawWith ext b).pOut = b.pOut ∧
    (unpackRawWith ext b).hOut = b.hOut ∧ (unpackRawWith ext b).coef = b.coef ∧
    (unpackRawWith ext b).rawT = extendRaw ext (assemble20 b.adcT) ∧
    (unpackRawWith ext b).rawP = extendRaw ext (assemble20 b.adcP) ∧
    (unpackRawWith ext b).rawH = extendRaw ext (assemble16 b.adcH) := by
  simp [unpackRawWith]

/-- The seven writes of `COMPENSATE` (R150). -/
@[simp] theorem compensate_outputs (b : Block) :
    (compensate b).tFine = tFineOf b.coef b.rawT ∧ (compensate b).tOut = tOutOf (tFineOf b.coef b.rawT) ∧
    (compensate b).pOut = pOutOf b.coef (tFineOf b.coef b.rawT) b.rawP ∧
    (compensate b).hOut = hOutOf (stage3V1 b.coef (tFineOf b.coef b.rawT) b.rawH) ∧
    (compensate b).status.pZero = pZeroFlag (stage2D b.coef (tFineOf b.coef b.rawT)) ∧
    (compensate b).status.hClampLo = hClampLoFlag (stage3V1 b.coef (tFineOf b.coef b.rawT) b.rawH) ∧
    (compensate b).status.hClampHi = hClampHiFlag (clampLow (stage3V1 b.coef (tFineOf b.coef b.rawT) b.rawH)) := by
  simp [compensate]

/-- The meaning of `COMPENSATE` as an update of the block. -/
theorem exec_compensate (s : State) : exec .compensate s = .next (s.withBlock (compensate s.block)) := rfl

/-- The meaning of `CAL_LOAD` as an update of the block. -/
theorem exec_calLoad (s : State) : exec .calLoad s = .next (s.withBlock (calLoad s.block)) := rfl

/-- The meaning of `UNPACK_RAW` as an update of the block. -/
theorem exec_unpackRaw (s : State) :
    exec .unpackRaw s = .next (s.withBlock (unpackRawWith Config.unpackExt s.block)) := rfl

@[simp] theorem clearSticky_fields (f : Status) (w : Word) :
    (f.clearSticky w).calLoaded = f.calLoaded ∧ (f.clearSticky w).loadFail = f.loadFail ∧
    (f.clearSticky w).pZero = f.pZero ∧ (f.clearSticky w).hClampLo = f.hClampLo ∧
    (f.clearSticky w).hClampHi = f.hClampHi ∧ (f.clearSticky w).cmdErr = (f.cmdErr && !clearsCmdErr w) ∧
    (f.clearSticky w).accErr = (f.accErr && !clearsAccErr w) := by
  simp [Status.clearSticky]

end Sys2Proof.Machine
end

