-- ==== Sys2Proof/Laws/Calibration.lean ====
section
/-! SUPPORT. The calibration loader: the valid bits, the decode and the load command. -/

namespace Sys2Proof.Machine

/-- A field of all ones is bits that are all 1 (R124). -/
theorem field_eq_allOnes_iff {n : Nat} (v : BitVec n) (lo len : Nat) :
    field v lo len = BitVec.allOnes len ↔ ∀ i < len, v.getLsbD (lo + i) = true := by
  constructor
  · intro h i hi
    have := congrArg (fun x => x.getLsbD i) h
    simpa [field, hi] using this
  · intro h
    ext i hi
    simpa [field] using h i hi

/-- A load succeeds exactly when every valid bit is set and no error is reported (R124). -/
theorem loadOk_iff (b : Block) :
    loadOk b = true ↔ (∀ i < 33, b.vld.getLsbD i = true) ∧ b.calErr.errA = false ∧ b.calErr.errB = false := by
  simp only [loadOk, regionAComplete, regionBComplete, Bool.and_eq_true, decide_eq_true_eq, field_eq_allOnes_iff,
    Bool.not_eq_true', and_assoc]
  constructor
  · rintro ⟨ha, hb, h⟩
    refine ⟨fun i hi => ?_, h⟩
    by_cases h26 : i < 26
    · simpa using ha i h26
    · simpa [show 26 + (i - 26) = i by omega] using hb (i - 26) (by omega)
  · rintro ⟨h, h'⟩
    exact ⟨fun i hi => h _ (by omega), fun i hi => h _ (by omega), h'⟩

/-- What `CAL_LOAD` does when it succeeds (R123). -/
theorem calLoad_ok {b : Block} (h : loadOk b = true) : calLoad b = discardDelivered (commitCoefs b) := by
  simp [calLoad, h]

/-- What `CAL_LOAD` does when it fails (R139). -/
theorem calLoad_fail {b : Block} (h : loadOk b = false) : calLoad b = discardDelivered (raiseTransportFailure b) := by
  simp [calLoad, h]

/-- The 12-bit sign extension keeps the signed value (R130). -/
theorem toInt_sext12 (v : BitVec 12) : (sext12 v).toInt = v.toInt := toInt_sext v (by decide)

/-- A sign-extended 12-bit value is in [-2048, 2047] (R130). -/
theorem in12Bits_sext12 (v : BitVec 12) : in12Bits (sext12 v) = true := by
  have h1 := v.le_toInt
  have h2 := v.toInt_lt
  simp only [in12Bits, toInt_sext12, Bool.and_eq_true, decide_eq_true_eq]
  constructor <;> omega

/-- A little-endian pair as a number (R127). -/
theorem toNat_le16 (B : Buffer) (i : Nat) : (le16 B i).toNat = (B i).toNat + 256 * (B (i + 1)).toNat := by
  have := (B i).isLt
  rw [le16, BitVec.toNat_append, ← Nat.shiftLeft_add_eq_or_of_lt (by omega), Nat.shiftLeft_eq]
  omega

/-- The ranges the decode gives `H4` and `H5` (R43). -/
theorem decodeCoefs_ranges (B : Buffer) :
    in12Bits (decodeCoefs B).h4 = true ∧ in12Bits (decodeCoefs B).h5 = true :=
  ⟨in12Bits_sext12 _, in12Bits_sext12 _⟩

/-- The staging buffer stays canonical when a byte is delivered at a legal offset. -/
theorem deliverByte_wf {b : Block} {w : Word} (hb : b.stage.wf = true) (hw : calWrLegal w = true) (v : Byte) :
    (deliverByte b (calWrOffset w) v).stage.wf = true := by
  simp only [calWrLegal, decide_eq_true_eq] at hw
  simpa using Memory.wf_write v hb hw

end Sys2Proof.Machine
end

