-- ==== Sys2Proof/Laws/Compensation.lean ====
section
/-! SUPPORT. The compensation engine: the clamps, the sentinel and the range of the humidity. -/

namespace Sys2Proof.Machine

theorem hClampLoFlag_iff (v : Word) : hClampLoFlag v = true ↔ v.toInt < 0 := by
  rw [hClampLoFlag, ltS_iff]; rfl

theorem hClampHiFlag_iff (v : Word) : hClampHiFlag v = true ↔ 419430400 < v.toInt := by
  rw [hClampHiFlag, ltS_iff]; rfl

/-- The lower clamp as a number (R171). -/
theorem toInt_clampLow (v : Word) : (clampLow v).toInt = max v.toInt 0 := by
  unfold clampLow
  split
  · next h => rw [hClampLoFlag_iff] at h; simp; omega
  · next h => rw [hClampLoFlag_iff] at h; omega

/-- The upper clamp as a number (R172). -/
theorem toInt_clampHigh (v : Word) : (clampHigh v).toInt = min v.toInt 419430400 := by
  unfold clampHigh
  split
  · next h => rw [hClampHiFlag_iff] at h; rw [min_eq_right (by omega)]; rfl
  · next h => rw [hClampHiFlag_iff] at h; omega

/-- The humidity result as a number (R174). -/
theorem toInt_hOutOf (v : Word) : (hOutOf v).toInt = min (max v.toInt 0) 419430400 / 4096 := by
  rw [hOutOf, toInt_asr, toInt_clampHigh, toInt_clampLow]; rfl

/-- The humidity result is in [0, 102400] (R174). -/
theorem toNat_hOutOf (v : Word) : ((hOutOf v).toNat : Int) = min (max v.toInt 0) 419430400 / 4096 := by
  have h := toInt_hOutOf v
  rw [BitVec.toInt_eq_toNat_cond] at h
  split at h <;> omega

/-- The sentinel (R161). -/
theorem pOutOf_of_pZero {c : Coefficients} {tf rp : Word} (h : pZeroFlag (stage2D c tf) = true) : pOutOf c tf rp = 0 := by
  simp [pOutOf, h]

/-- The computed pressure (R164). -/
theorem pOutOf_of_not_pZero {c : Coefficients} {tf rp : Word} (h : pZeroFlag (stage2D c tf) = false) :
    pOutOf c tf rp = trunc 32 (stage2Pb c (stage2Pa c tf rp)) := by
  simp [pOutOf, h]

end Sys2Proof.Machine
end

