-- ==== Sys2Proof/Laws/Decode.lean ====
section
/-! SUPPORT. Decoding: the slices of a transaction, the register map, and what the decoder answers. -/

namespace Sys2Proof

/-- A bit of a transaction written as its three fields (R80). -/
theorem getLsbD_fields (k : BitVec 1) (a : Offset) (w : Word) (i : Nat) :
    BitVec.getLsbD (w := 41) (k ++ a ++ w) i =
      if i < 32 then w.getLsbD i else if i - 32 < 8 then a.getLsbD (i - 32) else k.getLsbD (i - 32 - 8) := by
  have h : (k ++ a ++ w).getLsbD i = if i < 32 then w.getLsbD i else (k ++ a).getLsbD (i - 32) :=
    BitVec.getLsbD_append
  exact h.trans (by rw [BitVec.getLsbD_append])

/-- `ADDR` of a transaction written as its three fields (R80). -/
theorem txAddr_append (k : BitVec 1) (a : Offset) (w : Word) : txAddr (k ++ a ++ w) = a := by
  refine BitVec.eq_of_getLsbD_eq fun i hi => ?_
  simp only [txAddr, BitVec.getLsbD_extractLsb', getLsbD_fields]
  simp [hi]

/-- `DATA` of a transaction written as its three fields (R80). -/
theorem txData_append (k : BitVec 1) (a : Offset) (w : Word) : txData (k ++ a ++ w) = w := by
  refine BitVec.eq_of_getLsbD_eq fun i hi => ?_
  simp only [txData, BitVec.getLsbD_extractLsb', getLsbD_fields]
  simp [hi]

/-- `K` of a transaction written as its three fields (R80). -/
theorem txIsWrite_append (k : BitVec 1) (a : Offset) (w : Word) : txIsWrite (k ++ a ++ w) = k.getLsbD 0 := by
  simp only [txIsWrite, getLsbD_fields]
  simp

@[simp] theorem txIsWrite_encodeWrite (r : Reg) (w : Word) : txIsWrite (encodeWrite r w) = true :=
  (txIsWrite_append _ _ _).trans rfl

@[simp] theorem txIsWrite_encodeRead (r : Reg) : txIsWrite (encodeRead r) = false :=
  (txIsWrite_append _ _ _).trans rfl

/-- A transaction is its three fields (R80). -/
theorem tx_eta (x : Transaction) : BitVec.ofBool (txIsWrite x) ++ txAddr x ++ txData x = x := by
  refine BitVec.eq_of_getLsbD_eq fun i hi => ?_
  rw [getLsbD_fields]
  simp only [txIsWrite, txAddr, txData, BitVec.getLsbD_extractLsb']
  by_cases h1 : i < 32
  · simp [h1]
  · by_cases h2 : i - 32 < 8
    · simp [h1, h2, show 32 + (i - 32) = i by omega]
    · obtain rfl : i = 40 := by omega
      simp

/-- The map finds a register at its own offset (R22). -/
@[simp] theorem regAt_offset (r : Reg) : regAt r.offset = some r := by cases r <;> decide

/-- A register the map finds lies at that offset (R22). -/
theorem offset_of_regAt {a : Offset} {r : Reg} (h : regAt a = some r) : r.offset = a := by
  simpa using List.find?_some h

/-- Every register is aligned (R22). -/
@[simp] theorem offset_aligned (r : Reg) : r.offset.extractLsb' 0 2 = 0 := by cases r <;> decide

/-- An aligned offset is mapped exactly up to 0x84 (R22, R46). -/
theorem regAt_eq_none_iff (a : Offset) (h : a.extractLsb' 0 2 = 0) : regAt a = none ↔ 0x88 ≤ a.toNat := by
  revert a; decide

/-- Misalignment as a number (R65). -/
theorem misaligned_iff (a : Offset) : a.extractLsb' 0 2 ≠ 0 ↔ a.toNat % 4 ≠ 0 := by
  rw [ne_eq, ne_eq, ← BitVec.toNat_inj, BitVec.extractLsb'_toNat]
  simp

/-- The order of R92, on a transaction written as its fields: a WR of a mapped register. -/
@[simp] theorem decode_encodeWrite (r : Reg) (w : Word) : decode (encodeWrite r w) = decodeWrite r w := by
  have ha : txAddr (encodeWrite r w) = r.offset := txAddr_append _ _ _
  have hd : txData (encodeWrite r w) = w := txData_append _ _ _
  simp [decode, ha, hd]

/-- The order of R92, on a transaction written as its fields: an RD of a mapped register. -/
@[simp] theorem decode_encodeRead (r : Reg) : decode (encodeRead r) = .ok (decodeRead r) := by
  have ha : txAddr (encodeRead r) = r.offset := txAddr_append _ _ _
  simp [decode, ha]

/-- The accesses R22 allows: a write is rejected as read-only exactly for the registers of access code `R`. -/
theorem decodeWrite_readOnly_iff (r : Reg) (w : Word) :
    decodeWrite r w = .error .readOnlyWrite ↔ r.access = .readOnly := by
  have hc : decodeCommand w ≠ .error .readOnlyWrite := by
    unfold decodeCommand
    repeat' split
    all_goals simp
  cases r <;> simp [decodeWrite, Reg.access, hc]
  split <;> simp

/-- All the decoder can answer for a transaction (R92). -/
theorem decode_cases (x : Transaction) :
    ((txAddr x).extractLsb' 0 2 ≠ 0 ∧ decode x = .error (.misaligned (txIsWrite x))) ∨
    ((txAddr x).extractLsb' 0 2 = 0 ∧ regAt (txAddr x) = none ∧
      decode x = .error (.reservedOffset (txIsWrite x))) ∨
    ∃ r, regAt (txAddr x) = some r ∧
      ((txIsWrite x = true ∧ decode x = decodeWrite r (txData x)) ∨
        (txIsWrite x = false ∧ decode x = .ok (decodeRead r))) := by
  by_cases h : (txAddr x).extractLsb' 0 2 = 0
  · cases hr : regAt (txAddr x) with
    | none => exact .inr (.inl ⟨h, rfl, by simp [decode, h, hr]⟩)
    | some r =>
      refine .inr (.inr ⟨r, rfl, ?_⟩)
      cases hk : txIsWrite x <;> simp [decode, h, hr, hk]
  · exact .inl ⟨h, if_pos h⟩

/-- The decoder only answers well-formed instructions: the constraint of `WR.CAL_WR` (R92 case 4, R95). -/
theorem wf_of_decode {x : Transaction} {i : Instr} (h : decode x = .ok i) : i.wf = true := by
  rcases decode_cases x with ⟨-, hd⟩ | ⟨-, -, hd⟩ | ⟨r, -, ⟨-, hd⟩ | ⟨-, hd⟩⟩
  · rw [hd] at h; cases h
  · rw [hd] at h; cases h
  · rw [hd] at h
    cases r with
    | cmd =>
      simp only [decodeWrite, decodeCommand] at h
      repeat' split at h
      all_goals first | (cases h; rfl) | cases h
    | calWr =>
      simp only [decodeWrite] at h
      split at h
      · next hl => cases h; exact hl
      · cases h
    | _ => first | (cases h; rfl) | cases h
  · rw [hd] at h
    cases h
    cases r <;> rfl

end Sys2Proof
end

