-- ==== Sys2Proof/Laws/PerInstr.lean ====
section
/-! SUPPORT. Facts made per instruction: the encoder's words have the form of the instruction's row in
spec/opcode_table.json (R95). -/

namespace Sys2Proof.Laws.EncodeMatchesRow

/-- The encoding of an instruction has its row's form: `(X & mask) == match` (R95). -/
def Statement (i : Instr) : Prop := encode i &&& i.row.mask = i.row.pattern

/-- A WR's word under the mask of a WR row: `K` and `ADDR` stay, `DATA` goes. -/
theorem encodeWrite_masked (r : Reg) (w : Word) :
    encodeWrite r w &&& 0x1FF00000000 = 1#1 ++ r.offset ++ 0#32 := by
  have h : (0x1FF00000000 : Transaction) = BitVec.allOnes 1 ++ BitVec.allOnes 8 ++ 0#32 := by decide
  rw [h, encodeWrite, BitVec.and_append, BitVec.and_append]
  rw [BitVec.and_allOnes, BitVec.and_allOnes, BitVec.and_zero]

theorem nop : Statement .nop := by unfold Statement; decide
theorem calBegin : Statement .calBegin := by unfold Statement; decide
theorem calLoad : Statement .calLoad := by unfold Statement; decide
theorem compensate : Statement .compensate := by unfold Statement; decide
theorem unpackRaw : Statement .unpackRaw := by unfold Statement; decide
theorem wrStatus (data : Word) : Statement (.wrStatus data) := encodeWrite_masked .status data
theorem wrCalWr (data : Word) : Statement (.wrCalWr data) := encodeWrite_masked .calWr data
theorem wrCalErr (data : Word) : Statement (.wrCalErr data) := encodeWrite_masked .calErr data
theorem wrRawT (data : Word) : Statement (.wrRawT data) := encodeWrite_masked .rawT data
theorem wrRawP (data : Word) : Statement (.wrRawP data) := encodeWrite_masked .rawP data
theorem wrRawH (data : Word) : Statement (.wrRawH data) := encodeWrite_masked .rawH data
theorem wrAdcT (data : Word) : Statement (.wrAdcT data) := encodeWrite_masked .adcT data
theorem wrAdcP (data : Word) : Statement (.wrAdcP data) := encodeWrite_masked .adcP data
theorem wrAdcH (data : Word) : Statement (.wrAdcH data) := encodeWrite_masked .adcH data
theorem rdCmd : Statement .rdCmd := by unfold Statement; decide
theorem rdStatus : Statement .rdStatus := by unfold Statement; decide
theorem rdCalWr : Statement .rdCalWr := by unfold Statement; decide
theorem rdCalErr : Statement .rdCalErr := by unfold Statement; decide
theorem rdCalVldA : Statement .rdCalVldA := by unfold Statement; decide
theorem rdCalVldB : Statement .rdCalVldB := by unfold Statement; decide
theorem rdRawT : Statement .rdRawT := by unfold Statement; decide
theorem rdRawP : Statement .rdRawP := by unfold Statement; decide
theorem rdRawH : Statement .rdRawH := by unfold Statement; decide
theorem rdAdcT : Statement .rdAdcT := by unfold Statement; decide
theorem rdAdcP : Statement .rdAdcP := by unfold Statement; decide
theorem rdAdcH : Statement .rdAdcH := by unfold Statement; decide
theorem rdTFine : Statement .rdTFine := by unfold Statement; decide
theorem rdTOut : Statement .rdTOut := by unfold Statement; decide
theorem rdPOut : Statement .rdPOut := by unfold Statement; decide
theorem rdHOut : Statement .rdHOut := by unfold Statement; decide
theorem rdCoefT1 : Statement .rdCoefT1 := by unfold Statement; decide
theorem rdCoefT2 : Statement .rdCoefT2 := by unfold Statement; decide
theorem rdCoefT3 : Statement .rdCoefT3 := by unfold Statement; decide
theorem rdCoefP1 : Statement .rdCoefP1 := by unfold Statement; decide
theorem rdCoefP2 : Statement .rdCoefP2 := by unfold Statement; decide
theorem rdCoefP3 : Statement .rdCoefP3 := by unfold Statement; decide
theorem rdCoefP4 : Statement .rdCoefP4 := by unfold Statement; decide
theorem rdCoefP5 : Statement .rdCoefP5 := by unfold Statement; decide
theorem rdCoefP6 : Statement .rdCoefP6 := by unfold Statement; decide
theorem rdCoefP7 : Statement .rdCoefP7 := by unfold Statement; decide
theorem rdCoefP8 : Statement .rdCoefP8 := by unfold Statement; decide
theorem rdCoefP9 : Statement .rdCoefP9 := by unfold Statement; decide
theorem rdCoefH1 : Statement .rdCoefH1 := by unfold Statement; decide
theorem rdCoefH2 : Statement .rdCoefH2 := by unfold Statement; decide
theorem rdCoefH3 : Statement .rdCoefH3 := by unfold Statement; decide
theorem rdCoefH4 : Statement .rdCoefH4 := by unfold Statement; decide
theorem rdCoefH5 : Statement .rdCoefH5 := by unfold Statement; decide
theorem rdCoefH6 : Statement .rdCoefH6 := by unfold Statement; decide

end Sys2Proof.Laws.EncodeMatchesRow
end

