-- ==== Sys2Proof/Laws/Step.lean ====
section
/-! SUPPORT. What a step and an instruction can do, said once. -/

namespace Sys2Proof.Machine

/-- An empty queue: nothing changes. -/
theorem step_idle {s : State} (h : s.port.pending = []) : step s = .next s := by simp [step, h]

/-- The reset event. -/
theorem step_reset {s : State} {rest : List PortEvent} (h : s.port.pending = .reset :: rest) :
    step s = .next (applyReset (s.withPending rest)) := by simp [step, h]

/-- An access the decoder reads runs its instruction. -/
theorem step_access_ok {s : State} {x : Transaction} {rest : List PortEvent} {i : Instr}
    (h : s.port.pending = .access x :: rest) (hd : decode x = .ok i) : step s = exec i (s.withPending rest) := by
  simp [step, h, runTransaction, hd]

/-- An access the decoder rejects takes its error outcome. -/
theorem step_access_error {s : State} {x : Transaction} {rest : List PortEvent} {e : Rejection}
    (h : s.port.pending = .access x :: rest) (hd : decode x = .error e) :
    step s = .next (takeRejection e (s.withPending rest)) := by
  simp [step, h, runTransaction, hd]

/-- All a step can be. -/
theorem step_cases (s : State) :
    (s.port.pending = [] ∧ step s = .next s) ∨
    (∃ rest, s.port.pending = .reset :: rest ∧ step s = .next (applyReset (s.withPending rest))) ∨
    (∃ x rest i, s.port.pending = .access x :: rest ∧ decode x = .ok i ∧ step s = exec i (s.withPending rest)) ∨
    ∃ x rest e, s.port.pending = .access x :: rest ∧ decode x = .error e ∧
      step s = .next (takeRejection e (s.withPending rest)) := by
  cases h : s.port.pending with
  | nil => exact .inl ⟨rfl, step_idle h⟩
  | cons ev rest =>
    cases ev with
    | reset => exact .inr (.inl ⟨rest, rfl, step_reset h⟩)
    | access x =>
      cases hd : decode x with
      | ok i => exact .inr (.inr (.inl ⟨x, rest, i, rfl, hd, step_access_ok h hd⟩))
      | error e => exact .inr (.inr (.inr ⟨x, rest, e, rfl, hd, step_access_error h hd⟩))

/-- An error outcome changes nothing of the block but its sticky bit, and leaves the queue. -/
theorem takeRejection_cases (e : Rejection) (s : State) :
    (takeRejection e s).port.pending = s.port.pending ∧
    ((e = .illegalCommand ∧ (takeRejection e s).block = raiseCmdError s.block) ∨
      (e ≠ .illegalCommand ∧ (takeRejection e s).block = raiseAccessError s.block)) := by
  cases e <;> simp [takeRejection, takeAccessError] <;> split <;> simp

/-- An RD returns the register's value and changes nothing else (R100). -/
theorem exec_decodeRead (r : Reg) (s : State) : exec (decodeRead r) s = .next (s.respond (readReg r s.block)) := by
  cases r <;> rfl

/-- All an instruction can do: an RD returns a value and leaves the block, anything else changes the block only. -/
theorem exec_cases (i : Instr) (s : State) :
    (∃ r, i = decodeRead r ∧ exec i s = .next (s.respond (readReg r s.block))) ∨
    ∃ b, (∀ r, i ≠ decodeRead r) ∧ exec i s = .next (s.withBlock b) := by
  cases i with
  | wrCalWr w =>
    refine .inr ?_
    by_cases h : calWrLegal w
    · exact ⟨deliverByte s.block (calWrOffset w) (calWrByte w), fun r => by cases r <;> simp [decodeRead],
        by simp [exec, execWrCalWr, h]⟩
    · exact ⟨raiseAccessError s.block, fun r => by cases r <;> simp [decodeRead],
        by simp [exec, execWrCalWr, takeAccessError, h]⟩
  | nop => exact .inr ⟨s.block, fun r => by cases r <;> simp [decodeRead], rfl⟩
  | calBegin => exact .inr ⟨_, fun r => by cases r <;> simp [decodeRead], rfl⟩
  | calLoad => exact .inr ⟨_, fun r => by cases r <;> simp [decodeRead], rfl⟩
  | compensate => exact .inr ⟨_, fun r => by cases r <;> simp [decodeRead], rfl⟩
  | unpackRaw => exact .inr ⟨_, fun r => by cases r <;> simp [decodeRead], rfl⟩
  | wrStatus w => exact .inr ⟨_, fun r => by cases r <;> simp [decodeRead], rfl⟩
  | wrCalErr w => exact .inr ⟨_, fun r => by cases r <;> simp [decodeRead], rfl⟩
  | wrRawT w => exact .inr ⟨_, fun r => by cases r <;> simp [decodeRead], rfl⟩
  | wrRawP w => exact .inr ⟨_, fun r => by cases r <;> simp [decodeRead], rfl⟩
  | wrRawH w => exact .inr ⟨_, fun r => by cases r <;> simp [decodeRead], rfl⟩
  | wrAdcT w => exact .inr ⟨_, fun r => by cases r <;> simp [decodeRead], rfl⟩
  | wrAdcP w => exact .inr ⟨_, fun r => by cases r <;> simp [decodeRead], rfl⟩
  | wrAdcH w => exact .inr ⟨_, fun r => by cases r <;> simp [decodeRead], rfl⟩
  | rdCmd => exact .inl ⟨.cmd, rfl, rfl⟩
  | rdStatus => exact .inl ⟨.status, rfl, rfl⟩
  | rdCalWr => exact .inl ⟨.calWr, rfl, rfl⟩
  | rdCalErr => exact .inl ⟨.calErr, rfl, rfl⟩
  | rdCalVldA => exact .inl ⟨.calVldA, rfl, rfl⟩
  | rdCalVldB => exact .inl ⟨.calVldB, rfl, rfl⟩
  | rdRawT => exact .inl ⟨.rawT, rfl, rfl⟩
  | rdRawP => exact .inl ⟨.rawP, rfl, rfl⟩
  | rdRawH => exact .inl ⟨.rawH, rfl, rfl⟩
  | rdAdcT => exact .inl ⟨.adcT, rfl, rfl⟩
  | rdAdcP => exact .inl ⟨.adcP, rfl, rfl⟩
  | rdAdcH => exact .inl ⟨.adcH, rfl, rfl⟩
  | rdTFine => exact .inl ⟨.tFine, rfl, rfl⟩
  | rdTOut => exact .inl ⟨.tOut, rfl, rfl⟩
  | rdPOut => exact .inl ⟨.pOut, rfl, rfl⟩
  | rdHOut => exact .inl ⟨.hOut, rfl, rfl⟩
  | rdCoefT1 => exact .inl ⟨.coefT1, rfl, rfl⟩
  | rdCoefT2 => exact .inl ⟨.coefT2, rfl, rfl⟩
  | rdCoefT3 => exact .inl ⟨.coefT3, rfl, rfl⟩
  | rdCoefP1 => exact .inl ⟨.coefP1, rfl, rfl⟩
  | rdCoefP2 => exact .inl ⟨.coefP2, rfl, rfl⟩
  | rdCoefP3 => exact .inl ⟨.coefP3, rfl, rfl⟩
  | rdCoefP4 => exact .inl ⟨.coefP4, rfl, rfl⟩
  | rdCoefP5 => exact .inl ⟨.coefP5, rfl, rfl⟩
  | rdCoefP6 => exact .inl ⟨.coefP6, rfl, rfl⟩
  | rdCoefP7 => exact .inl ⟨.coefP7, rfl, rfl⟩
  | rdCoefP8 => exact .inl ⟨.coefP8, rfl, rfl⟩
  | rdCoefP9 => exact .inl ⟨.coefP9, rfl, rfl⟩
  | rdCoefH1 => exact .inl ⟨.coefH1, rfl, rfl⟩
  | rdCoefH2 => exact .inl ⟨.coefH2, rfl, rfl⟩
  | rdCoefH3 => exact .inl ⟨.coefH3, rfl, rfl⟩
  | rdCoefH4 => exact .inl ⟨.coefH4, rfl, rfl⟩
  | rdCoefH5 => exact .inl ⟨.coefH5, rfl, rfl⟩
  | rdCoefH6 => exact .inl ⟨.coefH6, rfl, rfl⟩

/-- All a well-formed instruction can do to the block. -/
theorem exec_block_cases {i : Instr} {s t : State} (hw : i.wf = true) (h : exec i s = .next t) :
    t.block = s.block ∨
    (i = .calBegin ∧ t.block = discardDelivered s.block) ∨
    (i = .calLoad ∧ loadOk s.block = true ∧ t.block = discardDelivered (commitCoefs s.block)) ∨
    (i = .calLoad ∧ loadOk s.block = false ∧ t.block = discardDelivered (raiseTransportFailure s.block)) ∨
    (i = .compensate ∧ t.block = compensate s.block) ∨
    (i = .unpackRaw ∧ t.block = unpackRawWith Config.unpackExt s.block) ∨
    ∃ w,
      (i = .wrStatus w ∧ t.block = { s.block with status := s.block.status.clearSticky w }) ∨
      (i = .wrCalWr w ∧ calWrLegal w = true ∧
        t.block = deliverByte s.block (calWrOffset w) (calWrByte w)) ∨
      (i = .wrCalErr w ∧ t.block = { s.block with calErr := calErrOfWord w }) ∨
      (i = .wrRawT w ∧ t.block = { s.block with rawT := w }) ∨
      (i = .wrRawP w ∧ t.block = { s.block with rawP := w }) ∨
      (i = .wrRawH w ∧ t.block = { s.block with rawH := w }) ∨
      (i = .wrAdcT w ∧ t.block = { s.block with adcT := adcTOfWord w }) ∨
      (i = .wrAdcP w ∧ t.block = { s.block with adcP := adcPOfWord w }) ∨
      (i = .wrAdcH w ∧ t.block = { s.block with adcH := adcHOfWord w }) := by
  cases i with
  | calBegin => cases h; simp
  | calLoad =>
    rw [exec_calLoad] at h
    cases h
    cases hl : loadOk s.block
    · simp [calLoad_fail hl]
    · simp [calLoad_ok hl]
  | compensate => rw [exec_compensate] at h; cases h; simp
  | unpackRaw => rw [exec_unpackRaw] at h; cases h; simp
  | wrCalWr w =>
    have hl : calWrLegal w = true := hw
    simp only [exec, execWrCalWr, hl, if_true] at h
    cases h
    simp [hl]
  | wrStatus w => cases h; simp
  | wrCalErr w => cases h; simp
  | wrRawT w => cases h; simp
  | wrRawP w => cases h; simp
  | wrRawH w => cases h; simp
  | wrAdcT w => cases h; simp
  | wrAdcP w => cases h; simp
  | wrAdcH w => cases h; simp
  | _ => cases h; exact .inl rfl

/-- All a step can do to the block: nothing, the reset, an error's sticky bit, or the effect of the instruction it runs. -/
theorem step_block_cases {s t : State} (h : step s = .next t) :
    t.block = s.block ∨
    (∃ rest, s.port.pending = .reset :: rest ∧ t.block = Block.reset) ∨
    (∃ x rest, s.port.pending = .access x :: rest ∧ decode x = .error .illegalCommand ∧
      t.block = raiseCmdError s.block) ∨
    (∃ x rest e, s.port.pending = .access x :: rest ∧ decode x = .error e ∧ e ≠ .illegalCommand ∧
      t.block = raiseAccessError s.block) ∨
    ∃ x rest i, s.port.pending = .access x :: rest ∧ decode x = .ok i ∧ i.wf = true ∧
      exec i (s.withPending rest) = .next t := by
  rcases step_cases s with ⟨-, hs⟩ | ⟨rest, hp, hs⟩ | ⟨x, rest, i, hp, hd, hs⟩ | ⟨x, rest, e, hp, hd, hs⟩
  · rw [hs] at h; cases h; exact .inl rfl
  · rw [hs] at h; cases h; exact .inr (.inl ⟨rest, hp, rfl⟩)
  · rw [hs] at h
    exact .inr (.inr (.inr (.inr ⟨x, rest, i, hp, hd, wf_of_decode hd, h⟩)))
  · rw [hs] at h
    cases h
    rcases takeRejection_cases e (s.withPending rest) with ⟨-, ⟨rfl, hb⟩ | ⟨he, hb⟩⟩
    · exact .inr (.inr (.inl ⟨x, rest, hp, hd, hb⟩))
    · exact .inr (.inr (.inr (.inl ⟨x, rest, e, hp, hd, he, hb⟩)))

end Sys2Proof.Machine
end

