-- ==== Sys2Proof/Tests/Slice0.lean ====
section
/-! SUPPORT. The model's own tests. Expected values come from spec/95_test_vectors.md (named in each comment: RA, CD, CL, S1,
S2, S3, U, V-E1, P1 to P5), or from the table or example of the rule named. -/

namespace Sys2Proof.Tests

open Sys2Proof Sys2Proof.Machine Sys2Proof.Reference

/-! ## Helpers -/

/-- The state a result carries. -/
def stateOf (r : Result) : Option State :=
  match r with
  | .next s => some s
  | .fault _ => none
  | .refused _ => none

/-- The state with one transaction delivered next. -/
def offer (x : Transaction) (s : State) : State := s.withPending [.access x]

/-- The state after one transaction. -/
def after (x : Transaction) (s : State) : Option State := stateOf (step (offer x s))

/-- `STATUS` as the host would read it after one transaction. -/
def statusAfter (x : Transaction) (s : State) : Option Word := (after x s).map fun t => t.block.status.toWord

/-- What an instruction returns to the host. -/
def returned (i : Instr) (s : State) : Option (List Word) := (stateOf (exec i s)).map fun t => t.port.reads

/-- The V-E1 coefficients (95_test_vectors.md section 2). -/
def ve1 : Coefficients :=
  { t1 := 27504, t2 := 26435, t3 := -1000, p1 := 36477, p2 := -10685, p3 := 3024, p4 := 2855, p5 := 140, p6 := -7,
    p7 := 15500, p8 := -14600, p9 := 6000, h1 := 75, h2 := 362, h3 := 0, h4 := 313, h5 := 50, h6 := 30 }

/-- The V-E1 buffer, offsets 0 to 32 (95_test_vectors.md section 2). -/
def ve1Bytes : List Byte :=
  [0x70, 0x6B, 0x43, 0x67, 0x18, 0xFC, 0x7D, 0x8E, 0x43, 0xD6, 0xD0, 0x0B, 0x27, 0x0B, 0x8C, 0x00, 0xF9, 0xFF] ++
    [0x8C, 0x3C, 0xF8, 0xC6, 0x70, 0x17, 0x00, 0x4B, 0x6A, 0x01, 0x00, 0x13, 0x29, 0x03, 0x1E]

/-- A list of bytes as a buffer. -/
def bufferOf (l : List Byte) : Buffer := fun i => l.getD i 0

/-- Zero but for the listed bytes. -/
def sparse (l : List (Nat × Byte)) : Buffer := Memory.read l

/-- Reset with another block. -/
def withB (f : Block → Block) : State := State.reset.withBlock (f Block.reset)

/-- Reset with another `STATUS`. -/
def withStatus (f : Status → Status) : State := withB fun b => { b with status := f b.status }

/-- Reset with the V-E1 coefficients and raw values. -/
def measured : State := withB fun b => { b with coef := ve1, rawT := 519888, rawP := 415148, rawH := 29000 }

/-- Distinct values in every register: the values program P1 ends with, and the ADC bytes of U1. -/
def sample : State :=
  withB fun b =>
    { b with
      coef := ve1, rawT := 0x0007EED0, rawP := 0x000655AC, rawH := 0x00007148
      adcT := 0x7EED00, adcP := 0x655AC0, adcH := 0x7148
      tFine := 0x0001F5A6, tOut := 0x000009CC, pOut := 0x01892D41, hOut := 0x0000C5BA
      status := { b.status with calLoaded := true }, calErr := { errA := true, errB := false }
      vld := 0xFFFFFFFF }

/-- Reset with every valid bit set and the V-E1 `T1` bytes staged. -/
def staged : State := withB fun b => { b with vld := BitVec.allOnes 33, stage := [(0, 0x70), (1, 0x6B)] }

/-! ## Well-formedness: the one check refuses an ill-formed term -/

theorem test_wf_calWr_offset33 : (Instr.wrCalWr 0x2100).wf = false := by decide
theorem test_wf_calWr_offset63 : (Instr.wrCalWr 0x3F00).wf = false := by decide
theorem test_wf_calWr_offset32 : (Instr.wrCalWr 0xFFFFE0AA).wf = true := by decide

/-! ## Decoding: one word per constructor, `K`, `ADDR` of the R22 table, `DATA` -/

theorem test_decode_nop : decode (1#1 ++ 0x00#8 ++ 0x00000000#32) = .ok .nop := by decide
theorem test_decode_calBegin : decode (1#1 ++ 0x00#8 ++ 0x00000001#32) = .ok .calBegin := by decide
theorem test_decode_calLoad : decode (1#1 ++ 0x00#8 ++ 0x00000002#32) = .ok .calLoad := by decide
theorem test_decode_compensate : decode (1#1 ++ 0x00#8 ++ 0x00000003#32) = .ok .compensate := by decide
theorem test_decode_unpackRaw : decode (1#1 ++ 0x00#8 ++ 0x00000004#32) = .ok .unpackRaw := by decide
theorem test_decode_wrStatus : decode (1#1 ++ 0x04#8 ++ 0x00000300#32) = .ok (.wrStatus 0x00000300) := by decide
theorem test_decode_wrCalWr : decode (1#1 ++ 0x08#8 ++ 0x00001D70#32) = .ok (.wrCalWr 0x00001D70) := by decide
theorem test_decode_wrCalErr : decode (1#1 ++ 0x0C#8 ++ 0xFFFFFFFE#32) = .ok (.wrCalErr 0xFFFFFFFE) := by decide
theorem test_decode_wrRawT : decode (1#1 ++ 0x18#8 ++ 0x0007EED0#32) = .ok (.wrRawT 0x0007EED0) := by decide
theorem test_decode_wrRawP : decode (1#1 ++ 0x1C#8 ++ 0xFFFFFFFF#32) = .ok (.wrRawP 0xFFFFFFFF) := by decide
theorem test_decode_wrRawH : decode (1#1 ++ 0x20#8 ++ 0x00007148#32) = .ok (.wrRawH 0x00007148) := by decide
theorem test_decode_wrAdcT : decode (1#1 ++ 0x24#8 ++ 0xFF7EED00#32) = .ok (.wrAdcT 0xFF7EED00) := by decide
theorem test_decode_wrAdcP : decode (1#1 ++ 0x28#8 ++ 0x00655AC0#32) = .ok (.wrAdcP 0x00655AC0) := by decide
theorem test_decode_wrAdcH : decode (1#1 ++ 0x2C#8 ++ 0x12347148#32) = .ok (.wrAdcH 0x12347148) := by decide
theorem test_decode_rdCmd : decode (0#1 ++ 0x00#8 ++ 0x00000000#32) = .ok .rdCmd := by decide
theorem test_decode_rdStatus : decode (0#1 ++ 0x04#8 ++ 0x00000000#32) = .ok .rdStatus := by decide
theorem test_decode_rdCalWr : decode (0#1 ++ 0x08#8 ++ 0x00000000#32) = .ok .rdCalWr := by decide
theorem test_decode_rdCalErr : decode (0#1 ++ 0x0C#8 ++ 0x00000000#32) = .ok .rdCalErr := by decide
theorem test_decode_rdCalVldA : decode (0#1 ++ 0x10#8 ++ 0x00000000#32) = .ok .rdCalVldA := by decide
theorem test_decode_rdCalVldB : decode (0#1 ++ 0x14#8 ++ 0x00000000#32) = .ok .rdCalVldB := by decide
theorem test_decode_rdRawT : decode (0#1 ++ 0x18#8 ++ 0x00000000#32) = .ok .rdRawT := by decide
theorem test_decode_rdRawP : decode (0#1 ++ 0x1C#8 ++ 0x00000000#32) = .ok .rdRawP := by decide
theorem test_decode_rdRawH : decode (0#1 ++ 0x20#8 ++ 0x00000000#32) = .ok .rdRawH := by decide
theorem test_decode_rdAdcT : decode (0#1 ++ 0x24#8 ++ 0x00000000#32) = .ok .rdAdcT := by decide
theorem test_decode_rdAdcP : decode (0#1 ++ 0x28#8 ++ 0x00000000#32) = .ok .rdAdcP := by decide
theorem test_decode_rdAdcH : decode (0#1 ++ 0x2C#8 ++ 0x00000000#32) = .ok .rdAdcH := by decide
theorem test_decode_rdTFine : decode (0#1 ++ 0x30#8 ++ 0x00000000#32) = .ok .rdTFine := by decide
theorem test_decode_rdTOut : decode (0#1 ++ 0x34#8 ++ 0xFFFFFFFF#32) = .ok .rdTOut := by decide
theorem test_decode_rdPOut : decode (0#1 ++ 0x38#8 ++ 0x00000000#32) = .ok .rdPOut := by decide
theorem test_decode_rdHOut : decode (0#1 ++ 0x3C#8 ++ 0x00000000#32) = .ok .rdHOut := by decide
theorem test_decode_rdCoefT1 : decode (0#1 ++ 0x40#8 ++ 0x00000000#32) = .ok .rdCoefT1 := by decide
theorem test_decode_rdCoefT2 : decode (0#1 ++ 0x44#8 ++ 0x00000000#32) = .ok .rdCoefT2 := by decide
theorem test_decode_rdCoefT3 : decode (0#1 ++ 0x48#8 ++ 0x00000000#32) = .ok .rdCoefT3 := by decide
theorem test_decode_rdCoefP1 : decode (0#1 ++ 0x4C#8 ++ 0x00000000#32) = .ok .rdCoefP1 := by decide
theorem test_decode_rdCoefP2 : decode (0#1 ++ 0x50#8 ++ 0x00000000#32) = .ok .rdCoefP2 := by decide
theorem test_decode_rdCoefP3 : decode (0#1 ++ 0x54#8 ++ 0x00000000#32) = .ok .rdCoefP3 := by decide
theorem test_decode_rdCoefP4 : decode (0#1 ++ 0x58#8 ++ 0x00000000#32) = .ok .rdCoefP4 := by decide
theorem test_decode_rdCoefP5 : decode (0#1 ++ 0x5C#8 ++ 0x00000000#32) = .ok .rdCoefP5 := by decide
theorem test_decode_rdCoefP6 : decode (0#1 ++ 0x60#8 ++ 0x00000000#32) = .ok .rdCoefP6 := by decide
theorem test_decode_rdCoefP7 : decode (0#1 ++ 0x64#8 ++ 0x00000000#32) = .ok .rdCoefP7 := by decide
theorem test_decode_rdCoefP8 : decode (0#1 ++ 0x68#8 ++ 0x00000000#32) = .ok .rdCoefP8 := by decide
theorem test_decode_rdCoefP9 : decode (0#1 ++ 0x6C#8 ++ 0x00000000#32) = .ok .rdCoefP9 := by decide
theorem test_decode_rdCoefH1 : decode (0#1 ++ 0x70#8 ++ 0x00000000#32) = .ok .rdCoefH1 := by decide
theorem test_decode_rdCoefH2 : decode (0#1 ++ 0x74#8 ++ 0x00000000#32) = .ok .rdCoefH2 := by decide
theorem test_decode_rdCoefH3 : decode (0#1 ++ 0x78#8 ++ 0x00000000#32) = .ok .rdCoefH3 := by decide
theorem test_decode_rdCoefH4 : decode (0#1 ++ 0x7C#8 ++ 0x00000000#32) = .ok .rdCoefH4 := by decide
theorem test_decode_rdCoefH5 : decode (0#1 ++ 0x80#8 ++ 0x00000000#32) = .ok .rdCoefH5 := by decide
theorem test_decode_rdCoefH6 : decode (0#1 ++ 0x84#8 ++ 0x00000000#32) = .ok .rdCoefH6 := by decide

/-! ## Decoding: what is no row -/

-- RA4, RA7
theorem test_decode_misaligned_read : decode 0x00100000000 = .error (.misaligned false) := by decide
theorem test_decode_misaligned_write : decode 0x10600000001 = .error (.misaligned true) := by decide
-- RA5, RA6: the first and the last reserved multiple of 4
theorem test_decode_reserved_first : decode 0x08800000000 = .error (.reservedOffset false) := by decide
theorem test_decode_reserved_last : decode 0x0FC00000000 = .error (.reservedOffset false) := by decide
-- RA8, RA9
theorem test_decode_readOnly_tOut : decode 0x13400000001 = .error .readOnlyWrite := by decide
theorem test_decode_readOnly_coefT1 : decode 0x14000001234 = .error .readOnlyWrite := by decide
-- RA10 to RA13
theorem test_decode_command_5 : decode 0x10000000005 = .error .illegalCommand := by decide
theorem test_decode_command_F : decode 0x1000000000F = .error .illegalCommand := by decide
theorem test_decode_command_bit4 : decode 0x10000000013 = .error .illegalCommand := by decide
theorem test_decode_command_bit31 : decode 0x10080000003 = .error .illegalCommand := by decide
-- RA24, RA25
theorem test_decode_calWr_33 : decode 0x10800002100 = .error .calWrOffset := by decide
theorem test_decode_calWr_63 : decode 0x10800003F00 = .error .calWrOffset := by decide
-- the host's entry points, on words of opcode_table.json
theorem test_decodeTableWord_compensate : decodeTableWord 48 0x10000000003 = some .compensate := by decide
theorem test_decodeTableWord_bit41 : decodeTableWord 48 0x30000000003 = none := by decide
theorem test_withFetchWord_runs :
    (stateOf (step (State.reset.withFetchWord 48 0x1180007EED0))).map (fun t => (t.block.rawT, t.port.pending)) =
      some (519888, []) := by decide

/-! ## Register access -/

-- RA14
theorem test_nop_keeps_status :
    statusAfter 0x10000000000 (withStatus fun f => { f with calLoaded := true, cmdErr := true, accErr := true }) =
      some 0x00000301 := by decide
-- RA15, RA17
theorem test_wrStatus_clears_cmdErr :
    statusAfter 0x10400000100 (withStatus fun f => { f with calLoaded := true, cmdErr := true, accErr := true }) =
      some 0x00000201 := by decide
theorem test_wrStatus_zeros_keep :
    statusAfter 0x104FFFFFCFF (withStatus fun f => { f with calLoaded := true, cmdErr := true, accErr := true }) =
      some 0x00000301 := by decide
-- RA18, RA19, RA20
theorem test_wrRawT : (after 0x1180007EED0 State.reset).map (·.block.rawT) = some 0x0007EED0 := by decide
theorem test_wrRawP : (after 0x11CFFFFFFFF State.reset).map (·.block.rawP) = some 0xFFFFFFFF := by decide
theorem test_wrRawH : (after 0x12000007148 State.reset).map (·.block.rawH) = some 0x00007148 := by decide
-- RA21, R106, RA22
theorem test_wrAdcT : (after 0x124FF7EED00 State.reset).map (fun t => readReg .adcT t.block) = some 0x007EED00 := by
  decide
theorem test_wrAdcP : (after 0x12800655AC0 State.reset).map (fun t => readReg .adcP t.block) = some 0x00655AC0 := by
  decide
theorem test_wrAdcH : (after 0x12C12347148 State.reset).map (fun t => readReg .adcH t.block) = some 0x00007148 := by
  decide
-- RA4, RA8, RA12: the errors as a whole step
theorem test_misaligned_read_returns_0 :
    (after 0x00100000000 sample).map (fun t => (t.port.reads, t.block.status.toWord)) = some ([0], 0x00000201) := by decide
theorem test_readOnly_write_keeps :
    (after 0x13400000001 sample).map (fun t => (t.block.tOut, t.block.status.toWord)) = some (0x000009CC, 0x00000201) := by
  decide
theorem test_illegal_command_runs_nothing :
    (after 0x10000000013 measured).map (fun t => (t.block.tFine, t.block.status.toWord)) = some (0, 0x00000100) := by decide

/-! ## Reads: the values of program P1's end state, U1 and the V-E1 `COEF_*` table -/

theorem test_rdCmd : returned .rdCmd sample = some [0x00000000] := by decide
theorem test_rdStatus : returned .rdStatus sample = some [0x00000001] := by decide
theorem test_rdCalWr : returned .rdCalWr sample = some [0x00000000] := by decide
theorem test_rdCalErr : returned .rdCalErr sample = some [0x00000001] := by decide
theorem test_rdCalVldA : returned .rdCalVldA sample = some [0x03FFFFFF] := by decide
theorem test_rdCalVldB : returned .rdCalVldB sample = some [0x0000003F] := by decide
theorem test_rdRawT : returned .rdRawT sample = some [0x0007EED0] := by decide
theorem test_rdRawP : returned .rdRawP sample = some [0x000655AC] := by decide
theorem test_rdRawH : returned .rdRawH sample = some [0x00007148] := by decide
theorem test_rdAdcT : returned .rdAdcT sample = some [0x007EED00] := by decide
theorem test_rdAdcP : returned .rdAdcP sample = some [0x00655AC0] := by decide
theorem test_rdAdcH : returned .rdAdcH sample = some [0x00007148] := by decide
theorem test_rdTFine : returned .rdTFine sample = some [0x0001F5A6] := by decide
theorem test_rdTOut : returned .rdTOut sample = some [0x000009CC] := by decide
theorem test_rdPOut : returned .rdPOut sample = some [0x01892D41] := by decide
theorem test_rdHOut : returned .rdHOut sample = some [0x0000C5BA] := by decide
theorem test_rdCoefT1 : returned .rdCoefT1 sample = some [0x00006B70] := by decide
theorem test_rdCoefT2 : returned .rdCoefT2 sample = some [0x00006743] := by decide
theorem test_rdCoefT3 : returned .rdCoefT3 sample = some [0xFFFFFC18] := by decide
theorem test_rdCoefP1 : returned .rdCoefP1 sample = some [0x00008E7D] := by decide
theorem test_rdCoefP2 : returned .rdCoefP2 sample = some [0xFFFFD643] := by decide
theorem test_rdCoefP3 : returned .rdCoefP3 sample = some [0x00000BD0] := by decide
theorem test_rdCoefP4 : returned .rdCoefP4 sample = some [0x00000B27] := by decide
theorem test_rdCoefP5 : returned .rdCoefP5 sample = some [0x0000008C] := by decide
theorem test_rdCoefP6 : returned .rdCoefP6 sample = some [0xFFFFFFF9] := by decide
theorem test_rdCoefP7 : returned .rdCoefP7 sample = some [0x00003C8C] := by decide
theorem test_rdCoefP8 : returned .rdCoefP8 sample = some [0xFFFFC6F8] := by decide
theorem test_rdCoefP9 : returned .rdCoefP9 sample = some [0x00001770] := by decide
theorem test_rdCoefH1 : returned .rdCoefH1 sample = some [0x0000004B] := by decide
theorem test_rdCoefH2 : returned .rdCoefH2 sample = some [0x0000016A] := by decide
theorem test_rdCoefH3 : returned .rdCoefH3 sample = some [0x00000000] := by decide
theorem test_rdCoefH4 : returned .rdCoefH4 sample = some [0x00000139] := by decide
theorem test_rdCoefH5 : returned .rdCoefH5 sample = some [0x00000032] := by decide
theorem test_rdCoefH6 : returned .rdCoefH6 sample = some [0x0000001E] := by decide

/-! ## Calibration loader -/

-- RA26
theorem test_wrCalWr_last_offset :
    (after 0x108FFFFE0AA State.reset).map (fun t => (t.block.stage, calVldB t.block.vld, t.block.status.toWord)) =
      some ([(32, 0xAA)], 0x00000040, 0) := by decide
-- R120: the last write wins; a zero byte leaves the canonical form with no cell
theorem test_wrCalWr_overwrites :
    (after 0x10800000000 staged).map (fun t => (t.block.stage, t.block.stage.read 0)) = some ([(1, 0x6B)], 0) := by decide
-- RA23
theorem test_wrCalErr :
    (after 0x10CFFFFFFFE State.reset).map (fun t => readReg .calErr t.block) = some 0x00000002 := by decide
-- the CAL_BEGIN vector of section 3.2
theorem test_calBegin :
    (after 0x10000000001 (withB fun b => { b with vld := BitVec.allOnes 33, calErr := ⟨true, true⟩ })).map
      (fun t => (calVldA t.block.vld, calVldB t.block.vld, readReg .calErr t.block)) = some (0, 0, 0) := by decide
-- CL1
theorem test_calLoad_commits :
    (after 0x10000000002 staged).map (fun t => (t.block.coef.t1, t.block.status.toWord, t.block.vld)) =
      some (27504, 0x00000001, 0) := by decide
-- CL2: only offset 24 missing
theorem test_calLoad_needs_offset24 :
    (after 0x10000000002 (withB fun b => { b with vld := BitVec.allOnes 33 ^^^ (1#33 <<< 24), coef := ve1 })).map
      (fun t => (t.block.coef.t1, t.block.status.toWord, t.block.vld)) = some (27504, 0x00000002, 0) := by decide
-- CD2 to CD5, CD7 to CD10
theorem test_decode_allOnes :
    decodeCoefs (fun _ => 0xFF) =
      ⟨65535, -1, -1, 65535, -1, -1, -1, -1, -1, -1, -1, -1, 255, -1, 255, -1, -1, -1⟩ := by decide
theorem test_decode_counting :
    decodeCoefs (fun i => BitVec.ofNat 8 i) =
      ⟨256, 770, 1284, 1798, 2312, 2826, 3340, 3854, 4368, 4882, 5396, 5910, 25, 6938, 28, 478, 497, 32⟩ := by decide
theorem test_decode_h4_low : decodeH4 (sparse [(29, 0x80), (30, 0xF0), (31, 0x7F)]) = -2048 := by decide
theorem test_decode_h5_high : decodeH5 (sparse [(29, 0x80), (30, 0xF0), (31, 0x7F)]) = 2047 := by decide
theorem test_decode_h5_low : decodeH5 (sparse [(29, 0x7F), (30, 0x0F), (31, 0x80)]) = -2048 := by decide
-- W1: the source's own example
theorem test_decode_h4_w1 : (decodeH4 (sparse [(29, 0xAB), (30, 0xCD), (31, 0xEF)])).toInt = -1347 := by decide
theorem test_decode_h5_w1 : (decodeH5 (sparse [(29, 0xAB), (30, 0xCD), (31, 0xEF)])).toInt = -260 := by decide
theorem test_decode_p1_unsigned : (decodeCoefs (sparse [(7, 0x80)])).p1.toNat = 32768 := by decide
theorem test_decode_t2_signed : (decodeCoefs (sparse [(3, 0x80)])).t2.toInt = -32768 := by decide
theorem test_decode_ve1 : decodeCoefs (bufferOf ve1Bytes) = ve1 := by decide
theorem test_encode_ve1 : (List.range 33).map (encodeCoefs ve1) = ve1Bytes := by decide

/-! ## Compensation engine -/

-- V-E1
theorem test_compensate_ve1 :
    (after 0x10000000003 measured).map (fun t => (t.block.tFine, t.block.tOut, t.block.pOut, t.block.hOut)) =
      some (0x0001F5A6, 0x000009CC, 0x01892D41, 0x0000C5BA) := by decide
-- W8
theorem test_compensate_all_zero :
    statusAfter 0x10000000003 (withB fun b => { b with rawT := 519888, rawP := 415148, rawH := 29000 }) =
      some 0x00000004 := by decide
-- S1-2, S1-5, S1-6, S1-7, S1-8
theorem test_stage1_zero : (tFineOf ve1 0).toInt = -721301 := by decide
theorem test_stage1_wraps : (tFineOf ve1 2147483647).toInt = -324099 := by decide
theorem test_stage1_rounds_negative : (tOutOf (-52)).toInt = -1 := by decide
theorem test_stage1_square_wraps : tFineOf { Coefficients.zero with t3 := 1 } 741456 = -32 := by decide
theorem test_stage1_square_last : tFineOf { Coefficients.zero with t3 := 1 } 741440 = 31 := by decide
-- S2-3 (negative pb), S2-6 (64-bit subtraction), S2-8
theorem test_stage2_negative : pOutOf ve1 128422 1048576 = 0xFFE618F5 := by decide
theorem test_stage2_wide_subtraction : pOutOf ve1 128422 (-2146435073) = 0x01AD7D6C := by decide
theorem test_stage2_negative_tFine : pOutOf ve1 (-100000) 415148 = 0x016EBFA9 := by decide
-- S3-4, S3-5, S3-6, S3-7, S3-8, S3-9
theorem test_stage3_low : (stage3V1 ve1 128422 0).toInt = -486364973 := by decide
theorem test_stage3_high : hOutOf (stage3V1 ve1 128422 65535) = 102400 := by decide
theorem test_stage3_wraps : (stage3V1 ve1 128422 131072).toInt = -1604255600 := by decide
theorem test_stage3_h1 : stage3V1 { ve1 with h1 := 255 } 128422 29000 = 203763555 := by decide
theorem test_stage3_at_bound : hClampHiFlag (stage3V1 { Coefficients.zero with h2 := 100 } 0 65535) = false := by decide
theorem test_stage3_over_bound : hClampHiFlag (stage3V1 { Coefficients.zero with h2 := 100 } 0 65537) = true := by decide

/-! ## Raw-reading unpack -/

-- U2, U3 under both settings
theorem test_unpackRaw_trims :
    (after 0x10000000004 (withB fun b => { b with adcT := 0x7EED0F, adcP := 0x655ACF, adcH := 0x7148 })).map
      (fun t => (t.block.rawT, t.block.rawP, t.block.rawH)) = some (519888, 415148, 29000) := by decide
theorem test_unpackRaw_zero :
    (after 0x10000000004 (withB fun b => { b with adcT := 0xFFFFF0, adcP := 0x800000, adcH := 0x8000 })).map
      (fun t => (t.block.rawT, t.block.rawP, t.block.rawH)) = some (0x000FFFFF, 0x00080000, 0x00008000) := by decide
theorem test_unpack_sign :
    (fun b : Block => (b.rawT, b.rawP, b.rawH))
      (unpackRawWith .sign { Block.reset with adcT := 0xFFFFF0, adcP := 0x800000, adcH := 0x8000 }) =
        (0xFFFFFFFF, 0xFFF80000, 0xFFFF8000) := by decide

/-! ## Reset, idling, the invariant -/

theorem test_reset_event : (stateOf (step (sample.withPending [.reset]))).map (·.block) = some Block.reset := by decide
theorem test_idle : stateOf (step sample) = some sample := by decide
theorem test_reset_memory_wf : State.reset.block.stage.wf = true := by decide
theorem test_unsorted_memory_not_wf : Memory.wf [(2, 1), (1, 1)] = false := by decide
theorem test_zero_cell_not_wf : Memory.wf [(2, 0)] = false := by decide
theorem test_offset33_not_wf : Memory.wf [(33, 1)] = false := by decide

/-! ## Witnesses: a concrete state and operands for the hypotheses of each statement -/

theorem witness_ResetEventClearsTheBlock : (sample.withPending [.reset]).port.pending = .reset :: [] := rfl

theorem witness_StepRunsTheDeliveredAccess :
    (∃ i, Delivers (offer 0x10000000003 measured) 0x10000000003 [] ∧ decode 0x10000000003 = .ok i) ∧
    State.reset.port.pending = [] := ⟨⟨.compensate, rfl, by decide⟩, rfl⟩

theorem witness_DecodeInvertsEncode : (Instr.wrCalWr 0x20FF).wf = true := by decide

theorem witness_DecoderIsTheOpcodeTable :
    decode 0x10800002000 = .ok (.wrCalWr 0x2000) ∧ decode 0x10000000000 = .ok .nop ∧
    decode 0x084FFFFFFFF = .ok .rdCoefH6 := by decide

/-- The four causes, each at its boundary (R204). -/
theorem witness_IllegalAccessSetsAccErr :
    (Delivers (offer 0x08300000000 sample) 0x08300000000 [] ∧ illegalAccess 0x08300000000) ∧
    illegalAccess 0x08800000000 ∧ illegalAccess 0x1FC00000000 ∧ illegalAccess 0x11000000000 ∧
    illegalAccess 0x11400000000 ∧ illegalAccess 0x13000000000 ∧ illegalAccess 0x18400000000 ∧
    illegalAccess 0x10800002100 ∧ ¬illegalAccess 0x10800002000 ∧ ¬illegalAccess 0x08400000000 ∧
    ¬illegalAccess 0x12C00000000 := by
  refine ⟨⟨rfl, ?_⟩, ?_, ?_, ?_, ?_, ?_, ?_, ?_, ?_, ?_, ?_⟩ <;> decide

theorem witness_IllegalCommandSetsCmdErr :
    (Delivers (offer 0x10000000005 sample) 0x10000000005 [] ∧ illegalCommand 0x10000000005) ∧
    illegalCommand 0x10000000010 ∧ illegalCommand 0x10080000003 ∧ ¬illegalCommand 0x10000000004 := by
  refine ⟨⟨rfl, ?_⟩, ?_, ?_, ?_⟩ <;> decide

theorem witness_WritesToReadOnlyRegistersAreIllegal :
    Delivers (offer (wr 0x10 7) sample) (wr 0x10 7) [] ∧ Delivers (offer (wr 0x84 7) sample) (wr 0x84 7) [] := ⟨rfl, rfl⟩

theorem witness_StatusWriteClearsStickyBits :
    (0x300#32).toNat / 2 ^ 8 % 2 = 1 ∧ (0x300#32).toNat / 2 ^ 9 % 2 = 1 ∧ (0xFFFFFCFF#32).toNat / 2 ^ 8 % 2 = 0 ∧
    (0xFFFFFCFF#32).toNat / 2 ^ 9 % 2 = 0 := by decide

theorem witness_ReadsHaveNoSideEffects :
    (Delivers (offer (rd 0x84 5) sample) (rd 0x84 5) [] ∧ ¬badOffset (0x84#8).toNat) ∧
    (Delivers (offer (rd 0x88 5) sample) (rd 0x88 5) [] ∧ badOffset (0x88#8).toNat) ∧ badOffset (0x01#8).toNat ∧
    (Delivers (offer (rd 0x84 9) sample) (rd 0x84 9) [] ∧ (offer (rd 0x84 9) sample).block = sample.block) :=
  ⟨⟨rfl, by decide⟩, ⟨rfl, by decide⟩, by decide, rfl, rfl⟩

theorem witness_RepeatedStoresHaveNoFurtherEffect (w : Word) :
    Instr.wrAdcH w ∈ ([.wrCalErr w, .wrRawT w, .wrRawP w, .wrRawH w, .wrAdcT w, .wrAdcP w, .wrAdcH w] : List Instr) := by
  simp

/-- Offsets 32 and 33, and a byte and a valid bit beside the one written. -/
theorem witness_CalWrDeliversOneByte :
    (0x20AA#32).toNat / 256 % 64 = 32 ∧ (0x2100#32).toNat / 256 % 64 = 33 ∧ (31 : Nat) ≠ 32 := by decide

theorem witness_CalLoadCommitsACompleteFetch : FetchComplete staged.block := by decide

/-- A missing byte at each end of each region, and each transport error (CL2 to CL7). -/
theorem witness_CalLoadFailureKeepsTheSet :
    (∃ i, i < 33 ∧ (BitVec.allOnes 33 ^^^ 1#33).getLsbD i = false) ∧
    (∃ i, i < 33 ∧ (BitVec.allOnes 33 ^^^ (1#33 <<< 32)).getLsbD i = false) ∧
    sample.block.calErr.errA = true ∧ (calErrOfWord 2).errB = true :=
  ⟨⟨0, by decide⟩, ⟨32, by decide⟩, by decide⟩

theorem witness_DecodeIgnoresTheUnusedByte :
    (∀ i, i < 33 → i ≠ 24 → sparse [(24, 0xFF)] i = sparse [] i) ∧ sparse [(24, 0xFF)] 24 ≠ sparse [] 24 ∧
    State.reset.block.vld.getLsbD 24 = false := by decide

theorem witness_CoefficientCodecRoundTrip :
    -2048 ≤ (-2048 : BitVec 16).toInt ∧ (-2048 : BitVec 16).toInt ≤ 2047 ∧ -2048 ≤ (2047 : BitVec 16).toInt ∧
    (2047 : BitVec 16).toInt ≤ 2047 ∧ (32 : Nat) < 33 ∧ (32 : Nat) ≠ 24 := by decide

theorem witness_FetchCommitsTheDeliveredBuffer :
    (sample.withPending (fetchEvents (bufferOf ve1Bytes) ++ [.reset])).port.pending =
      fetchEvents (bufferOf ve1Bytes) ++ [.reset] := rfl

/-- A load that changes the coefficients, and a reset that clears `CAL_LOADED`. -/
theorem witness_CoefficientsChangeOnlyByLoadOrReset :
    (after 0x10000000002 staged).map (fun t => decide (t.block.coef ≠ staged.block.coef)) = some true ∧
    sample.block.status.calLoaded = true ∧
    (stateOf (step (sample.withPending [.reset]))).map (·.block.status.calLoaded) = some false := by decide

/-- Each flag changed by its writer: `CAL_LOADED`, `LOAD_FAIL`, `P_ZERO`, `CMD_ERR` and `ACC_ERR` set, and both cleared. -/
theorem witness_FlagWritersAreTheListedOnes :
    statusAfter 0x10000000002 staged = some 0x001 ∧ statusAfter 0x10000000002 State.reset = some 0x002 ∧
    statusAfter 0x10000000003 State.reset = some 0x004 ∧ statusAfter 0x10000000005 State.reset = some 0x100 ∧
    statusAfter 0x00100000000 State.reset = some 0x200 ∧
    statusAfter 0x10400000300 (withStatus fun f => { f with cmdErr := true, accErr := true }) = some 0 := by decide

theorem witness_OnlyTheStatusReadDependsOnStatus : Instr.rdTOut ≠ Instr.rdStatus := by decide

/-- A byte, a valid bit and a reported error changed by their writers. -/
theorem witness_StagingWritersAreTheListedOnes :
    (after 0x108000020AA State.reset).map (fun t => (decide (t.block.stage.read 32 ≠ 0), decide (t.block.vld ≠ 0))) =
      some (true, true) ∧
    (after 0x10C00000001 State.reset).map (fun t => t.block.calErr.errA) = some true := by decide

/-- An output, a raw input and an ADC register changed by their writers. -/
theorem witness_InputsAndOutputsChangeOnlyAsListed :
    (after 0x10000000003 measured).map (fun t => decide (t.block.tFine ≠ 0)) = some true ∧
    (after 0x11800000001 State.reset).map (fun t => decide (t.block.rawT ≠ 0)) = some true ∧
    (after 0x11C00000001 State.reset).map (fun t => decide (t.block.rawP ≠ 0)) = some true ∧
    (after 0x12000000001 State.reset).map (fun t => decide (t.block.rawH ≠ 0)) = some true ∧
    (after 0x12400000001 State.reset).map (fun t => decide (t.block.adcT ≠ 0)) = some true ∧
    (after 0x12800000001 State.reset).map (fun t => decide (t.block.adcP ≠ 0)) = some true ∧
    (after 0x12C00000001 State.reset).map (fun t => decide (t.block.adcH ≠ 0)) = some true := by decide

theorem witness_OperatorsAreExactThenWrapped :
    ((32 : Nat) = 32 ∨ (32 : Nat) = 64) ∧ (1 : Nat) ≤ 1 ∧ (47 : Nat) ≤ 47 ∧ (-1 : DWord) ≠ 0 := by decide

theorem witness_ReferenceVectorVE1 :
    measured.block.coef = ve1 ∧ measured.block.rawT = 519888 ∧ measured.block.rawP = 415148 ∧
    measured.block.rawH = 29000 := by decide

/-- Both denominators: the sentinel (W2) and a computed one (V-E1). -/
theorem witness_CompensateMatchesTheIntegerPipeline :
    dOf State.reset.block = 0 ∧ dOf measured.block = 597560748 ∧ pbOf measured.block = 25767233 ∧
    v1Of measured.block = 207332122 ∧ Reference.tFineOf measured.block = 128422 := by decide

/-- Two states that agree on the inputs and differ elsewhere. -/
theorem witness_CompensateDependsOnlyOnItsInputs :
    measured.block.rawT = sample.block.rawT ∧ measured.block.rawP = sample.block.rawP ∧
    measured.block.rawH = sample.block.rawH ∧ measured.block.coef = sample.block.coef ∧ measured.block ≠ sample.block := by
  decide

theorem witness_ZeroP1TakesTheSentinel :
    (withB fun b => { b with coef := { ve1 with p1 := 0 }, rawT := 519888, rawP := 415148 }).block.coef.p1 = 0 := by decide

/-- Both clamps are taken (S3-4, S3-5). -/
theorem witness_HumidityIsClamped :
    hClampLoFlag (stage3V1 ve1 128422 0) = true ∧ hClampHiFlag (clampLow (stage3V1 ve1 128422 65535)) = true := by decide

theorem witness_AllZeroCoefficientsGiveZeroOutputs :
    (withB fun b => { b with rawT := 519888, rawP := -1 }).block.coef = Coefficients.zero := by decide

theorem witness_ExtensionSettings :
    ((20 : Nat) = 16 ∨ (20 : Nat) = 20) ∧ (0x7FFFF#20).toNat < 2 ^ 19 ∧ 2 ^ 19 ≤ (0x80000#20).toNat ∧
    (0x7FFF#16).toNat < 2 ^ 15 ∧ 2 ^ 15 ≤ (0x8000#16).toNat := by decide

/-- The invariant holds of a loaded, measured state, and a step from it answers a next state. -/
theorem witness_StepKeepsTheInvariant :
    sample.Inv ∧ (stateOf (step (offer 0x10000000003 sample))).map (·.block.hOut) = some 0x0000C5BA :=
  ⟨by constructor <;> decide, by decide⟩

theorem witness_RunsKeepTheInvariantAndComplete : sample.Inv := by constructor <;> decide

end Sys2Proof.Tests
end

/-! SUPPORT. What an access does by its offset: a mapped register's read and write, the illegal accesses (R46, R65, R85,
R101, R204), and the coefficient readback (R44). -/

namespace Sys2Proof

open Machine Reference

/-- A WR of a mapped offset is decoded by its register (R92 cases 2 to 5). -/
theorem decode_of_write {x : Transaction} {r : Reg} (hr : regAt (txAddr x) = some r) (hw : txIsWrite x = true) :
    decode x = decodeWrite r (txData x) := by
  have ha : (txAddr x).extractLsb' 0 2 = 0 := offset_of_regAt hr ▸ offset_aligned r
  simp [decode, ha, hr, hw]

/-- An RD of a mapped offset is the read of its register (R92 case 6). -/
theorem decode_of_read {x : Transaction} {r : Reg} (hr : regAt (txAddr x) = some r) (hw : txIsWrite x = false) :
    decode x = .ok (decodeRead r) := by
  have ha : (txAddr x).extractLsb' 0 2 = 0 := offset_of_regAt hr ▸ offset_aligned r
  simp [decode, ha, hr, hw]

/-! ## Illegal accesses -/

/-- The two rejections of an access that names no register, told apart by alignment (R46, R65). -/
theorem decode_of_badOffset {x : Transaction} (h : badOffset (txAddr x).toNat) :
    decode x = .error (.misaligned (txIsWrite x)) ∨ decode x = .error (.reservedOffset (txIsWrite x)) := by
  by_cases ha : (txAddr x).extractLsb' 0 2 = 0
  · have hn : regAt (txAddr x) = none :=
      (regAt_eq_none_iff _ ha).2 (h.resolve_left fun hm => (misaligned_iff _).2 hm ha)
    exact .inr (by simp [decode, ha, hn])
  · exact .inl (if_pos ha)

/-- The read-only offsets are those of the registers of access code `R` (R22). -/
theorem access_regAt_eq_readOnly_iff (a : Offset) :
    (regAt a).map Reg.access = some .readOnly ↔ readOnlyOffset a.toNat := by
  revert a; decide

/-- A WR to a read-only register is rejected (R101). -/
theorem decode_of_readOnlyOffset {x : Transaction} (hw : txIsWrite x = true) (h : readOnlyOffset (txAddr x).toNat) :
    decode x = .error .readOnlyWrite := by
  obtain ⟨r, hr, hacc⟩ := Option.map_eq_some_iff.1 ((access_regAt_eq_readOnly_iff _).2 h)
  exact (decode_of_write hr hw).trans ((decodeWrite_readOnly_iff r _).2 hacc)

/-- `OFFSET` of a `CAL_WR` data word as a number (R84). -/
theorem calWrOffset_eq (w : Word) : calWrOffset w = w.toNat / 256 % 64 := toNat_field w 8 6

/-- The illegal values of `OFFSET`: 33 to 63 (R85). -/
theorem calWrLegal_eq_false_iff (w : Word) : calWrLegal w = false ↔ 32 < w.toNat / 256 % 64 := by
  rw [calWrLegal, decide_eq_false_iff_not, calWrOffset_eq, Nat.not_lt]
  exact Iff.rfl

/-- A WR to `CAL_WR` with an illegal `OFFSET` is rejected (R85). -/
theorem decode_of_calWrOffset {x : Transaction} (hw : txIsWrite x = true) (ha : (txAddr x).toNat = 0x08)
    (h : 32 < (txData x).toNat / 256 % 64) : decode x = .error .calWrOffset := by
  have hr : regAt (txAddr x) = some .calWr := by
    rw [show txAddr x = Reg.offset .calWr from BitVec.eq_of_toNat_eq ha, regAt_offset]
  rw [decode_of_write hr hw]
  simp [decodeWrite, (calWrLegal_eq_false_iff _).2 h]

/-- Each cause of R204 is rejected, and the rejection is taken as an AccessError in the access's own direction. -/
theorem takeRejection_of_illegalAccess {x : Transaction} (h : illegalAccess x) :
    ∃ e, decode x = .error e ∧ ∀ s, takeRejection e s = takeAccessError (txIsWrite x) s := by
  rcases h with hbad | ⟨hw, hro⟩ | ⟨hw, ha, hoff⟩
  · rcases decode_of_badOffset hbad with hd | hd <;> exact ⟨_, hd, fun _ => rfl⟩
  · exact ⟨_, decode_of_readOnlyOffset hw hro, fun _ => by rw [hw]; rfl⟩
  · exact ⟨_, decode_of_calWrOffset hw ha hoff, fun _ => by rw [hw]; rfl⟩

/-- The whole effect of an AccessError: `ACC_ERR`, and the 0 a faulting RD returns (R204). -/
theorem takeAccessError_eq (isWrite : Bool) (s : State) :
    takeAccessError isWrite s =
      { block := { s.block with status := { s.block.status with accErr := true } }
        port := { pending := s.port.pending, reads := if isWrite then s.port.reads else 0 :: s.port.reads } } := by
  cases isWrite <;> rfl

/-- Settles O9: the decoder rejects each of the four causes, and every such rejection is taken as an AccessError. -/
theorem illegalAccessSetsAccErr : Obligations.IllegalAccessSetsAccErr := by
  intro s x rest hdel hill
  obtain ⟨e, hd, htake⟩ := takeRejection_of_illegalAccess hill
  rw [step_access_error hdel hd, htake, takeAccessError_eq]
  rfl

/-! ## Coefficient readback -/

/-- An RD of a register's offset, whatever its `DATA`, is the read of that register (R80, R92 case 6). -/
theorem decode_rd_offset (r : Reg) (ignored : Word) : decode (rd r.offset ignored) = .ok (decodeRead r) :=
  decode_of_read (by rw [rd, txAddr_append, regAt_offset]) (by rw [rd, txIsWrite_append]; rfl)

/-- A register's RD returns its read value, read as a signed number (R100). -/
theorem returnsInt_readReg (r : Reg) {s : State} {z : Int} (h : (readReg r s.block).toInt = z) :
    ReturnsInt r.offset (decodeRead r) s z :=
  ⟨decode_rd_offset r, readReg r s.block, exec_decodeRead r s, h⟩

/-- A register that reads as a narrower field zero-extended returns the field's unsigned value (R44). -/
theorem returnsInt_zext (r : Reg) {s : State} {n : Nat} {v : BitVec n} (h : readReg r s.block = zext 32 v)
    (hn : n < 32 := by decide) : ReturnsInt r.offset (decodeRead r) s v.toNat :=
  returnsInt_readReg r (h ▸ toInt_zext v hn)

/-- A register that reads as a field sign-extended returns the field's signed value (R44). -/
theorem returnsInt_sext (r : Reg) {s : State} {n : Nat} {v : BitVec n} (h : readReg r s.block = sext 32 v)
    (hn : n ≤ 32 := by decide) : ReturnsInt r.offset (decodeRead r) s v.toInt :=
  returnsInt_readReg r (h ▸ toInt_sext v hn)

/-- Settles O18: each `COEF_*` register is read at its own offset, with the widening of its field. -/
theorem readsOfCoefficients : Obligations.ReadsOfCoefficients := fun _ =>
  ⟨returnsInt_zext .coefT1 rfl, returnsInt_sext .coefT2 rfl, returnsInt_sext .coefT3 rfl,
   returnsInt_zext .coefP1 rfl, returnsInt_sext .coefP2 rfl, returnsInt_sext .coefP3 rfl,
   returnsInt_sext .coefP4 rfl, returnsInt_sext .coefP5 rfl, returnsInt_sext .coefP6 rfl,
   returnsInt_sext .coefP7 rfl, returnsInt_sext .coefP8 rfl, returnsInt_sext .coefP9 rfl,
   returnsInt_zext .coefH1 rfl, returnsInt_sext .coefH2 rfl, returnsInt_zext .coefH3 rfl,
   returnsInt_sext .coefH4 rfl, returnsInt_sext .coefH5 rfl, returnsInt_sext .coefH6 rfl⟩

end Sys2Proof

/-! SUPPORT. What a step on an RD does, at an illegal and at a mapped offset (R63, R204). -/

namespace Sys2Proof

open Machine Reference

/-- An offset that is neither reserved nor misaligned is some register's (R22, R46, R65). -/
theorem exists_offset_eq_of_not_badOffset {a : Offset} (h : ¬badOffset a.toNat) : ∃ r : Reg, r.offset = a := by
  obtain ⟨halign, hlow⟩ := not_or.1 h
  have ha : a.extractLsb' 0 2 = 0 := not_not.1 fun hm => halign ((misaligned_iff a).1 hm)
  obtain ⟨r, hr⟩ := Option.ne_none_iff_exists'.1 fun hn => hlow ((regAt_eq_none_iff a ha).1 hn)
  exact ⟨r, offset_of_regAt hr⟩

/-- An RD of an illegal offset sets `ACC_ERR` and returns 0 (R204). -/
theorem step_rd_badOffset {s : State} {a : Offset} {ignored : Word} {rest : List PortEvent}
    (hdel : Delivers s (rd a ignored) rest) (hbad : badOffset a.toNat) :
    step s = .next
      { block := { s.block with status := { s.block.status with accErr := true } }
        port := { pending := rest, reads := 0 :: s.port.reads } } := by
  have hread : txIsWrite (rd a ignored) = false := txIsWrite_append _ _ _
  have haddr : txAddr (rd a ignored) = a := txAddr_append _ _ _
  have hstep := illegalAccessSetsAccErr s _ rest hdel (.inl (haddr.symm ▸ hbad))
  simpa [hread] using hstep

/-- An RD of a register's offset leaves the block and returns the register's value in it, whatever the port holds
(R100). -/
theorem step_rd_offset {s : State} {r : Reg} {ignored : Word} {rest : List PortEvent}
    (hdel : Delivers s (rd r.offset ignored) rest) :
    step s = .next
      { block := s.block, port := { pending := rest, reads := readReg r s.block :: s.port.reads } } :=
  (step_access_ok hdel (decode_rd_offset r ignored)).trans (exec_decodeRead r _)

/-- Settles O19: the value read is 0 at an illegal offset and, at a mapped one, a function of the register and the block
alone. -/
theorem readsHaveNoSideEffects : Obligations.ReadsHaveNoSideEffects := by
  intro s addr ignored rest hdel
  by_cases hbad : badOffset addr.toNat
  · exact ⟨0, fun _ => step_rd_badOffset hdel hbad, fun hgood => absurd hbad hgood⟩
  · obtain ⟨r, rfl⟩ := exists_offset_eq_of_not_badOffset hbad
    refine ⟨readReg r s.block, fun h => absurd h hbad, fun _ => ⟨step_rd_offset hdel, ?_⟩⟩
    intro t ignored' rest' hblock hdel'
    rw [← hblock]
    exact step_rd_offset hdel'

end Sys2Proof

/-! SUPPORT. The illegal command words and what a step does with one (R82, R83, R203). -/

namespace Sys2Proof

open Machine Reference

/-- `OP` of a command word as a number (R82). -/
theorem commandOp_toNat (w : Word) : (w.extractLsb' 0 4).toNat = w.toNat % 16 := by
  rw [BitVec.extractLsb'_toNat, Nat.shiftRight_zero]

/-- `DATA[31:4]` is 0 exactly where the word is below 16 (R82). -/
theorem commandUpper_eq_zero_iff (w : Word) : w.extractLsb' 4 28 = 0 ↔ w.toNat / 16 = 0 := by
  have hlt : w.toNat / 16 < 2 ^ 28 := by have := w.isLt; omega
  rw [← BitVec.toNat_inj, BitVec.extractLsb'_toNat, Nat.shiftRight_eq_div_pow, Nat.mod_eq_of_lt hlt]
  rfl

/-- The command words the decoder rejects are those R83 lists: an upper bit set, or `OP` in 0x5 to 0xF. -/
theorem decodeCommand_illegal_iff (w : Word) :
    decodeCommand w = .error .illegalCommand ↔ w.toNat / 16 ≠ 0 ∨ 5 ≤ w.toNat % 16 := by
  by_cases hu : w.toNat / 16 = 0
  · rw [decodeCommand, if_pos ((commandUpper_eq_zero_iff w).2 hu), commandOp_toNat]
    split
    case h_6 => -- the default branch: `OP` is none of the five codes
      refine iff_of_true rfl (.inr ?_)
      simp only [imp_false] at *
      omega
    all_goals simp [*]
  · rw [decodeCommand, if_neg (mt (commandUpper_eq_zero_iff w).1 hu)]
    simp [hu]

/-- A WR to `CMD` of an illegal command word is rejected as such (R83). -/
theorem decode_of_illegalCommand {x : Transaction} (h : illegalCommand x) : decode x = .error .illegalCommand := by
  obtain ⟨hw, ha, hill⟩ := h
  have hr : regAt (txAddr x) = some .cmd := by
    rw [show txAddr x = Reg.offset .cmd from BitVec.eq_of_toNat_eq ha, regAt_offset]
  exact (decode_of_write hr hw).trans ((decodeCommand_illegal_iff _).2 hill)

/-- Settles O10: the decoder rejects the access, and that rejection is taken as a CmdError, which sets its bit only. -/
theorem illegalCommandSetsCmdErr : Obligations.IllegalCommandSetsCmdErr := fun _ _ _ hdel hill =>
  step_access_error hdel (decode_of_illegalCommand hill)

end Sys2Proof

/-! SUPPORT. What the register writes and `NOP` do (R101 to R110): their decoding, the one update of the block each makes,
and the bits of the data word they store or act on (R87 to R89). -/

namespace Sys2Proof

open Machine Reference

/-- A WR to a register's offset is decoded by that register (R80, R92 cases 2 to 5). -/
theorem decode_wr_offset (r : Reg) (w : Word) : decode (wr r.offset w) = decodeWrite r w := decode_encodeWrite r w

/-! ## The effect of each write -/

/-- `NOP` answers the state it was given (R110). -/
theorem exec_nop (s : State) : exec .nop s = .next s := rfl

/-- `WR STATUS` changes `STATUS` only (R108). -/
theorem exec_wrStatus (s : State) (w : Word) :
    exec (.wrStatus w) s = .next (s.withBlock { s.block with status := s.block.status.clearSticky w }) := rfl

/-- `WR RAW_T` (R102). -/
theorem exec_wrRawT (s : State) (w : Word) : exec (.wrRawT w) s = .next (s.withBlock { s.block with rawT := w }) := rfl

/-- `WR RAW_P` (R103). -/
theorem exec_wrRawP (s : State) (w : Word) : exec (.wrRawP w) s = .next (s.withBlock { s.block with rawP := w }) := rfl

/-- `WR RAW_H` (R104). -/
theorem exec_wrRawH (s : State) (w : Word) : exec (.wrRawH w) s = .next (s.withBlock { s.block with rawH := w }) := rfl

/-- `WR ADC_T` (R105). -/
theorem exec_wrAdcT (s : State) (w : Word) :
    exec (.wrAdcT w) s = .next (s.withBlock { s.block with adcT := adcTOfWord w }) := rfl

/-- `WR ADC_P` (R106). -/
theorem exec_wrAdcP (s : State) (w : Word) :
    exec (.wrAdcP w) s = .next (s.withBlock { s.block with adcP := adcPOfWord w }) := rfl

/-- `WR ADC_H` (R107). -/
theorem exec_wrAdcH (s : State) (w : Word) :
    exec (.wrAdcH w) s = .next (s.withBlock { s.block with adcH := adcHOfWord w }) := rfl

/-! ## The bits of the data word -/

/-- The low bits of a word, stored and read back zero-extended (R87, R88). -/
theorem toNat_zext_lowField (w : Word) {len : Nat} (h : len ≤ 32) :
    (zext 32 (field w 0 len)).toNat = w.toNat % 2 ^ len := by
  rw [toNat_zext _ h, toNat_field, pow_zero, Nat.div_one]

/-- A bit of a word as a number (R7). -/
theorem getLsbD_eq_decide (w : Word) (i : Nat) : w.getLsbD i = decide (w.toNat / 2 ^ i % 2 = 1) :=
  Nat.testBit_eq_decide_div_mod_eq

/-- A 1 clears a write-1-to-clear bit (R89). -/
theorem sticky_of_one (f : Bool) {w : Word} {i : Nat} (h : w.toNat / 2 ^ i % 2 = 1) :
    (f && !w.getLsbD i) = false := by
  simp [getLsbD_eq_decide, h]

/-- A 0 leaves a write-1-to-clear bit (R89). -/
theorem sticky_of_zero (f : Bool) {w : Word} {i : Nat} (h : w.toNat / 2 ^ i % 2 = 0) :
    (f && !w.getLsbD i) = f := by
  simp [getLsbD_eq_decide, h]

/-! ## The obligations -/

/-- Settles O11: the listed offsets are the read-only ones, and a WR there is the third cause of an illegal access. -/
theorem writesToReadOnlyRegistersAreIllegal : Obligations.WritesToReadOnlyRegistersAreIllegal := by
  intro s addr w rest hmem
  have hro : readOnlyOffset addr.toNat := by revert addr; decide
  intro hdel
  have hwrite : txIsWrite (wr addr w) = true := txIsWrite_append _ _ _
  have haddr : txAddr (wr addr w) = addr := txAddr_append _ _ _
  have hstep := illegalAccessSetsAccErr s _ rest hdel (.inr (.inl ⟨hwrite, haddr.symm ▸ hro⟩))
  simpa [hwrite] using hstep

/-- Settles O12: the command word 0 is `NOP`, and `NOP` answers its own state. -/
theorem nopChangesNothing : Obligations.NopChangesNothing :=
  ⟨by decide, exec_nop⟩

/-- Settles O13: each of the three writes is decoded by its register and updates that register's field alone. -/
theorem rawWritesStoreTheWord : Obligations.RawWritesStoreTheWord := fun s v =>
  ⟨⟨decode_wr_offset .rawT v, exec_wrRawT s v⟩,
   ⟨decode_wr_offset .rawP v, exec_wrRawP s v⟩,
   ⟨decode_wr_offset .rawH v, exec_wrRawH s v⟩⟩

/-- Settles O14: each of the three writes updates one field, which reads as the low bits of the word; putting the field
back gives the first state. -/
theorem adcWritesStoreTheLowBits : Obligations.AdcWritesStoreTheLowBits := fun s v =>
  ⟨⟨decode_wr_offset .adcT v, _, exec_wrAdcT s v, toNat_zext_lowField v (by decide), rfl⟩,
   ⟨decode_wr_offset .adcP v, _, exec_wrAdcP s v, toNat_zext_lowField v (by decide), rfl⟩,
   ⟨decode_wr_offset .adcH v, _, exec_wrAdcH s v, toNat_zext_lowField v (by decide), rfl⟩⟩

/-- Settles O15: the two bits `WR STATUS` writes are write-1-to-clear bits at 8 and 9 of the word. -/
theorem statusWriteClearsStickyBits : Obligations.StatusWriteClearsStickyBits := fun s v =>
  ⟨decode_wr_offset .status v, _, _, exec_wrStatus s v,
   sticky_of_one _, sticky_of_zero _, sticky_of_one _, sticky_of_zero _⟩

end Sys2Proof

/-! SUPPORT. The calibration loader's accesses (R120 to R124): what each does to the block, the valid bits and the bytes
of the `CAL_WR` data word, and the buffer decode in plain numbers (R126 to R137). -/

namespace Sys2Proof

open Machine Reference

/-! ## The effect of each access -/

/-- `WR CAL_WR` with a legal `OFFSET` delivers its byte there (R120). -/
theorem exec_wrCalWr_legal {w : Word} (h : calWrLegal w = true) (s : State) :
    exec (.wrCalWr w) s = .next (s.withBlock (deliverByte s.block (calWrOffset w) (calWrByte w))) := if_pos h

/-- `WR CAL_WR` with an illegal `OFFSET` is an AccessError (R85, R120). -/
theorem exec_wrCalWr_illegal {w : Word} (h : calWrLegal w = false) (s : State) :
    exec (.wrCalWr w) s = .next (takeAccessError true s) := if_neg (Bool.eq_false_iff.1 h)

/-- `WR CAL_ERR` changes `CAL_ERR` only (R121). -/
theorem exec_wrCalErr (s : State) (w : Word) :
    exec (.wrCalErr w) s = .next (s.withBlock { s.block with calErr := calErrOfWord w }) := rfl

/-- `CAL_BEGIN` discards what was delivered (R122). -/
theorem exec_calBegin (s : State) : exec .calBegin s = .next (s.withBlock (discardDelivered s.block)) := rfl

/-- `CAL_LOAD` fails exactly when a valid bit is 0 or an error is reported (R124). -/
theorem loadOk_eq_false_iff (b : Block) :
    loadOk b = false ↔ (∃ i, i < 33 ∧ b.vld.getLsbD i = false) ∨ b.calErr.errA = true ∨ b.calErr.errB = true := by
  rw [← Bool.not_eq_true, loadOk_iff]
  simp only [not_and_or, not_forall, exists_prop, Bool.not_eq_true, Bool.not_eq_false]

/-! ## The data words and the bits they set -/

/-- The legal values of `OFFSET`: 0 to 32 (R84). -/
theorem calWrLegal_iff (w : Word) : calWrLegal w = true ↔ w.toNat / 256 % 64 ≤ 32 := by
  rw [← Bool.not_eq_false, calWrLegal_eq_false_iff, Nat.not_lt]

/-- The byte of a `CAL_WR` data word as a number (R84). -/
theorem calWrByte_toNat (w : Word) : (calWrByte w).toNat = w.toNat % 256 := by
  simp [calWrByte, toNat_field]

/-- A WR to `CAL_WR` with a legal `OFFSET` is that instruction (R92 case 5). -/
theorem decode_wr_calWr {w : Word} (h : calWrLegal w = true) : decode (wr 0x08 w) = .ok (.wrCalWr w) :=
  (decode_wr_offset .calWr w).trans (if_pos h)

/-- A bit of a word is 1 where the number has an odd quotient by its weight (R7). -/
theorem getLsbD_iff (w : Word) (i : Nat) : w.getLsbD i = true ↔ w.toNat / 2 ^ i % 2 = 1 := by
  rw [getLsbD_eq_decide, decide_eq_true_iff]

/-- Setting one bit of a word: that bit becomes 1 and the others stay. -/
theorem getLsbD_setBit {n i : Nat} (v : BitVec n) (hi : i < n) (k : Nat) :
    (v ||| 1#n <<< i).getLsbD k = (v.getLsbD k || decide (i = k)) := by
  rw [← BitVec.twoPow_eq, BitVec.getLsbD_or, BitVec.getLsbD_twoPow, decide_eq_true hi, Bool.true_and]

/-! ## The decode in plain numbers -/

/-- A two's-complement value from the unsigned one: from half the range up, the full range is subtracted (R8). -/
theorem toInt_eq_ite {n half : Nat} (v : BitVec n) (h : 2 ^ n = 2 * half) :
    v.toInt = if half ≤ v.toNat then (v.toNat : Int) - (2 ^ n : Nat) else v.toNat := by
  rw [BitVec.toInt_eq_toNat_cond, h]
  split <;> split <;> omega

/-- A concatenation as a number: the left part counts in units of the right part's range (R7). -/
theorem toNat_append_eq_add {m n : Nat} (a : BitVec m) (b : BitVec n) :
    (a ++ b).toNat = a.toNat * 2 ^ n + b.toNat := by
  rw [BitVec.toNat_append, ← Nat.shiftLeft_add_eq_or_of_lt b.isLt, Nat.shiftLeft_eq]

/-- A little-endian pair read as two's complement: `sle16` of R127. -/
theorem toInt_le16 (B : Buffer) (i : Nat) :
    (le16 B i).toInt =
      if 32768 ≤ (B i).toNat + 256 * (B (i + 1)).toNat then
        (((B i).toNat + 256 * (B (i + 1)).toNat : Nat) : Int) - 65536
      else (((B i).toNat + 256 * (B (i + 1)).toNat : Nat) : Int) := by
  rw [toInt_eq_ite (half := 32768) _ rfl, toNat_le16]
  rfl

/-- The low nibble of a byte as a number. -/
theorem toNat_lowNibble (v : Byte) : (field v 0 4).toNat = v.toNat % 16 := by
  simp [toNat_field]

/-- The high nibble of a byte as a number. -/
theorem toNat_highNibble (v : Byte) : (field v 4 4).toNat = v.toNat / 16 := by
  rw [toNat_field, Nat.mod_eq_of_lt (by have := v.isLt; omega)]
  rfl

/-- A byte over a nibble of value `x`, sign-extended from 12 bits (R130). -/
theorem toInt_sext12_append (hi : Byte) {lo : BitVec 4} {x : Nat} (hlo : lo.toNat = x) :
    (sext12 (hi ++ lo)).toInt =
      if 2048 ≤ hi.toNat * 16 + x then ((hi.toNat * 16 + x : Nat) : Int) - 4096
      else ((hi.toNat * 16 + x : Nat) : Int) := by
  rw [toInt_sext12, toInt_eq_ite (half := 2048) _ rfl, toNat_append_eq_add, hlo]
  rfl

/-- The decode reads the buffer at offsets 0 to 32 except 24 only (R126, R137). -/
theorem decodeCoefs_congr {B B' : Buffer} (h : ∀ i, i < 33 → i ≠ 24 → B i = B' i) : decodeCoefs B = decodeCoefs B' := by
  have hpair : ∀ i, i + 1 < 33 → i ≠ 24 → i + 1 ≠ 24 → le16 B i = le16 B' i := fun i hlt hne hne' => by
    rw [le16, le16, h i (Nat.lt_of_succ_lt hlt) hne, h (i + 1) hlt hne']
  simp (disch := decide) only [decodeCoefs, decodeH4, decodeH5, hpair, h]

/-! ## The obligations -/

/-- Settles O21: a legal offset delivers the byte, and undoing the two writes gives the first state; an illegal one is
an AccessError. -/
theorem calWrDeliversOneByte : Obligations.CalWrDeliversOneByte := by
  intro s w
  simp only [← calWrLegal_iff, ← calWrLegal_eq_false_iff]
  refine ⟨fun hlegal => ⟨decode_wr_calWr hlegal, _, exec_wrCalWr_legal hlegal s, ?_⟩, fun hill => ?_⟩
  · have hoff : calWrOffset w < 33 := of_decide_eq_true hlegal
    rw [← calWrOffset_eq]
    refine ⟨?_, fun a ha => ?_, ?_, fun k hk => ?_, rfl⟩
    · simp [calWrByte_toNat]
    · simp [Memory.read_write_of_ne _ _ ha]
    · simp [getLsbD_setBit _ hoff]
    · simp [getLsbD_setBit _ hoff, hk.symm]
  · rw [exec_wrCalWr_illegal hill, takeAccessError_eq]
    rfl

/-- Settles O24: a complete fetch passes the check, and the commit is followed by the clean-up. -/
theorem calLoadCommitsACompleteFetch : Obligations.CalLoadCommitsACompleteFetch :=
  ⟨by decide, fun s hfetch => by
    rw [exec_calLoad, calLoad_ok ((loadOk_iff s.block).2 hfetch)]
    rfl⟩

/-- Settles O25: any missing byte or reported error fails the check, and the failure is followed by the clean-up. -/
theorem calLoadFailureKeepsTheSet : Obligations.CalLoadFailureKeepsTheSet := by
  intro s hbad
  rw [exec_calLoad, calLoad_fail ((loadOk_eq_false_iff s.block).2 hbad)]
  rfl

/-- Settles O26: each field is the little-endian pair at its layout offset, read unsigned or as two's complement. -/
theorem decodeOfSixteenBitFields : Obligations.DecodeOfSixteenBitFields := fun B =>
  ⟨toNat_le16 B 0, toInt_le16 B 2, toInt_le16 B 4, toNat_le16 B 6, toInt_le16 B 8, toInt_le16 B 10, toInt_le16 B 12,
   toInt_le16 B 14, toInt_le16 B 16, toInt_le16 B 18, toInt_le16 B 20, toInt_le16 B 22, toInt_le16 B 26⟩

/-- Settles O27: three fields are one byte of the buffer, and the packed two are a byte over a nibble of byte 30. -/
theorem decodeOfHumidityBytes : Obligations.DecodeOfHumidityBytes := fun B =>
  ⟨rfl, rfl, toInt_sext12_append (B 29) (toNat_lowNibble (B 30)),
   toInt_sext12_append (B 31) (toNat_highNibble (B 30)), toInt_eq_ite (half := 128) (B 32) rfl⟩

/-- Settles O28: no field reads offset 24, but its valid bit is one of the 33 that a load needs (O25). -/
theorem decodeIgnoresTheUnusedByte : Obligations.DecodeIgnoresTheUnusedByte :=
  ⟨fun _ _ => decodeCoefs_congr,
   fun s hvld => ⟨_, calLoadFailureKeepsTheSet s (.inl ⟨24, by decide, hvld⟩), rfl, rfl⟩⟩

/-- Settles O22: the two bits stored are bits 0 and 1 of the word. -/
theorem calErrWriteReportsErrors : Obligations.CalErrWriteReportsErrors := fun s w =>
  ⟨decode_wr_offset .calErr w, w.getLsbD 0, w.getLsbD 1, exec_wrCalErr s w,
   by simpa only [pow_zero, Nat.div_one] using getLsbD_iff w 0, getLsbD_iff w 1⟩

/-- Settles O23: the command word 1 is `CAL_BEGIN`, and discarding writes the valid bits and `CAL_ERR` only. -/
theorem calBeginDiscardsTheFetch : Obligations.CalBeginDiscardsTheFetch :=
  ⟨by decide, exec_calBegin⟩

end Sys2Proof

/-! SUPPORT. The assembly of the raw values (R191 to R193) in plain numbers. -/

namespace Sys2Proof

open Machine Reference

/-! ## The bytes of an `ADC_*` register (R38) -/

/-- `MSB` is what is left above the two lower bytes. -/
theorem toNat_adcMsb (v : BitVec 24) : (adcMsb v).toNat = v.toNat / 65536 := by
  have hlt : v.toNat / 65536 < 256 := Nat.div_lt_of_lt_mul v.isLt
  rw [adcMsb, toNat_field]
  exact Nat.mod_eq_of_lt hlt

/-- `LSB` is the middle byte. -/
theorem toNat_adcLsb (v : BitVec 24) : (adcLsb v).toNat = v.toNat / 256 % 256 := toNat_field v 8 8

/-- `XLSB` is the lowest byte. -/
theorem toNat_adcXlsb (v : BitVec 24) : (adcXlsb v).toNat = v.toNat % 256 := by
  simp [adcXlsb, toNat_field]

/-- `MSB` of `ADC_H` is its upper byte. -/
theorem toNat_adcHMsb (v : BitVec 16) : (adcHMsb v).toNat = v.toNat / 256 % 256 := toNat_field v 8 8

/-- `LSB` of `ADC_H` is its lower byte. -/
theorem toNat_adcHLsb (v : BitVec 16) : (adcHLsb v).toNat = v.toNat % 256 := by
  simp [adcHLsb, toNat_field]

/-! ## The assembled values -/

/-- Two bytes over the high nibble of the third: the low nibble of `XLSB` is trimmed (R191, R192). -/
theorem toNat_assemble20 (v : BitVec 24) :
    (assemble20 v).toNat = v.toNat / 65536 * 4096 + v.toNat / 256 % 256 * 16 + v.toNat % 256 / 16 := by
  rw [assemble20, toNat_append_eq_add, toNat_append_eq_add, toNat_highNibble, toNat_adcMsb, toNat_adcLsb,
    toNat_adcXlsb]
  omega

/-- One byte over the other (R193). -/
theorem toNat_assemble16 (v : BitVec 16) :
    (assemble16 v).toNat = v.toNat / 256 % 256 * 256 + v.toNat % 256 := by
  rw [assemble16, toNat_append_eq_add, toNat_adcHMsb, toNat_adcHLsb]
  rfl

/-- The spec's setting of `UNPACK_EXT` keeps the assembled number (R6, R194). -/
theorem toNat_extendRaw_unpackExt {n : Nat} (v : BitVec n) (h : n ≤ 32) :
    (extendRaw Config.unpackExt v).toNat = v.toNat := toNat_zext v h

/-! ## The obligation -/

/-- Settles O46: the three writes hold the assembled values zero-extended, and they are the whole update of the block. -/
theorem unpackRawAssemblesBigEndian : Obligations.UnpackRawAssemblesBigEndian :=
  ⟨by decide, fun s =>
    ⟨_, _, _, exec_unpackRaw s,
     (toNat_extendRaw_unpackExt _ (by decide)).trans (toNat_assemble20 s.block.adcT),
     (toNat_extendRaw_unpackExt _ (by decide)).trans (toNat_assemble20 s.block.adcP),
     (toNat_extendRaw_unpackExt _ (by decide)).trans (toNat_assemble16 s.block.adcH)⟩⟩

end Sys2Proof

/-! SUPPORT. The registers after reset (R220, R222), and what writes the coefficient register file and `CAL_LOADED`
(R223). -/

namespace Sys2Proof

open Machine Reference

/-! ## Reset -/

/-- Every register reads 0 after reset (R22, R220). -/
theorem readReg_reset (r : Reg) : readReg r Block.reset = 0 := by cases r <;> rfl

/-- Settles O2: `STATUS` is one of the registers, and its stored flags are the reset ones. -/
theorem statusIsZeroAfterReset : Obligations.StatusIsZeroAfterReset :=
  ⟨readReg_reset .status, rfl, rfl, rfl, rfl, readReg_reset⟩

/-! ## The writers of the coefficients and of `CAL_LOADED` -/

/-- `b'` holds the coefficients and the `CAL_LOADED` of `b`. -/
def SameLoadedSet (b b' : Block) : Prop := b'.coef = b.coef ∧ b'.status.calLoaded = b.status.calLoaded

/-- An instruction keeps the loaded set, or it is a `CAL_LOAD` that succeeds and sets `CAL_LOADED` (R138, R223). -/
theorem exec_sameLoadedSet_or_calLoad {i : Instr} {s t : State} (hw : i.wf = true) (h : exec i s = .next t) :
    SameLoadedSet s.block t.block ∨
      (i = .calLoad ∧ FetchComplete s.block ∧ t.block.status.calLoaded = true) := by
  rcases exec_block_cases hw h with
    hb | ⟨-, hb⟩ | ⟨hi, hok, hb⟩ | ⟨-, -, hb⟩ | ⟨-, hb⟩ | ⟨-, hb⟩ |
    ⟨w, ⟨-, hb⟩ | ⟨-, -, hb⟩ | ⟨-, hb⟩ | ⟨-, hb⟩ | ⟨-, hb⟩ | ⟨-, hb⟩ | ⟨-, hb⟩ | ⟨-, hb⟩ | ⟨-, hb⟩⟩
  case inr.inr.inl => -- the load that succeeds
    exact .inr ⟨hi, (loadOk_iff s.block).1 hok, by simp [hb]⟩
  all_goals exact .inl (by simp [SameLoadedSet, hb])

/-- A step keeps the loaded set, or it is a reset, or a `CAL_LOAD` that succeeds and sets `CAL_LOADED` (R223). -/
theorem step_sameLoadedSet_or_reset_or_calLoad {s t : State} (h : step s = .next t) :
    SameLoadedSet s.block t.block ∨ Resets s ∨
      (Runs s .calLoad ∧ FetchComplete s.block ∧ t.block.status.calLoaded = true) := by
  rcases step_block_cases h with
    hb | ⟨rest, hp, -⟩ | ⟨_, _, -, -, hb⟩ | ⟨_, _, _, -, -, -, hb⟩ | ⟨x, rest, i, hp, hd, hw, hx⟩
  · exact .inl (by simp [SameLoadedSet, hb])
  · exact .inr (.inl ⟨rest, hp⟩)
  · exact .inl (by simp [SameLoadedSet, hb])
  · exact .inl (by simp [SameLoadedSet, hb])
  · rcases exec_sameLoadedSet_or_calLoad hw hx with hsame | ⟨rfl, hfetch, hset⟩
    · exact .inl hsame
    · exact .inr (.inr ⟨⟨x, rest, hp, hd⟩, hfetch, hset⟩)

/-- Settles O31: a step that keeps the loaded set changes neither, and a successful load sets the flag. -/
theorem coefficientsChangeOnlyByLoadOrReset : Obligations.CoefficientsChangeOnlyByLoadOrReset := by
  intro s t h
  rcases step_sameLoadedSet_or_reset_or_calLoad h with ⟨hcoef, hflag⟩ | hreset | ⟨hruns, hfetch, hset⟩
  · exact ⟨fun hne => absurd hcoef hne, fun h1 h0 => by simp [hflag, h1] at h0⟩
  · exact ⟨fun _ => .inl hreset, fun _ _ => hreset⟩
  · exact ⟨fun _ => .inr ⟨hruns, hfetch⟩, fun _ h0 => by simp [hset] at h0⟩

end Sys2Proof

/-! SUPPORT. The encoder, the rows of the opcode table and the decoder against each other (R92, R95). -/

namespace Sys2Proof

open Machine Reference

/-! ## The encoder -/

/-- A well-formed instruction is what its own encoding decodes to (R94, R95). -/
theorem decode_encode {i : Instr} (hw : i.wf = true) : decode (encode i) = .ok i := by
  cases i with
  | nop | calBegin | calLoad | compensate | unpackRaw => decide
  | wrCalWr w => exact (decode_encodeWrite .calWr w).trans (if_pos hw)
  | wrStatus w => exact decode_encodeWrite .status w
  | wrCalErr w => exact decode_encodeWrite .calErr w
  | wrRawT w => exact decode_encodeWrite .rawT w
  | wrRawP w => exact decode_encodeWrite .rawP w
  | wrRawH w => exact decode_encodeWrite .rawH w
  | wrAdcT w => exact decode_encodeWrite .adcT w
  | wrAdcP w => exact decode_encodeWrite .adcP w
  | wrAdcH w => exact decode_encodeWrite .adcH w
  | _ => exact decode_encodeRead _

/-- Settles O6: `encode` writes the register and the data word that `decode` reads back. -/
theorem decodeInvertsEncode : Obligations.DecodeInvertsEncode := fun _ => decode_encode

/-- The encoding of a register's RD (R94). -/
theorem encode_decodeRead (r : Reg) : encode (decodeRead r) = encodeRead r := by cases r <;> rfl

/-- A word with no bit above its `OP` is that number (R82). -/
theorem eq_ofNat_commandOp {w : Word} (hu : w.extractLsb' 4 28 = 0) :
    w = BitVec.ofNat 32 (w.extractLsb' 0 4).toNat := by
  have hdiv := (commandUpper_eq_zero_iff w).1 hu
  rw [commandOp_toNat, Nat.mod_eq_of_lt (by omega), BitVec.ofNat_toNat, BitVec.setWidth_eq]

/-- What a command word decodes to encodes back to that word (R82). -/
theorem encode_of_decodeCommand {w : Word} {i : Instr} (h : decodeCommand w = .ok i) :
    encode i = encodeWrite .cmd w := by
  by_cases hu : w.extractLsb' 4 28 = 0
  · rw [eq_ofNat_commandOp hu]
    rw [decodeCommand, if_pos hu] at h
    split at h
    case h_6 => cases h -- no command has another `OP`
    all_goals next hop => cases h; rw [hop]; rfl
  · rw [decodeCommand, if_neg hu] at h
    cases h

/-- What a WR of a register decodes to encodes back to that WR (R94, R95). -/
theorem encode_of_decodeWrite {r : Reg} {w : Word} {i : Instr} (h : decodeWrite r w = .ok i) :
    encode i = encodeWrite r w := by
  cases r with
  | cmd => exact encode_of_decodeCommand h
  | calWr =>
    rw [decodeWrite] at h
    split at h <;> cases h
    rfl
  | status | calErr | rawT | rawP | rawH | adcT | adcP | adcH => cases h; rfl
  | _ => cases h

/-- Transactions that agree in `K`, `ADDR` and `DATA` are the same (R80). -/
theorem tx_ext {x y : Transaction} (hk : txIsWrite x = txIsWrite y) (ha : txAddr x = txAddr y)
    (hd : txData x = txData y) : x = y := by
  rw [← tx_eta x, ← tx_eta y, hk, ha, hd]

/-- A decoded transaction is its instruction's encoding, or it is an RD, whose `DATA` is free (R80, R95). -/
theorem eq_encode_or_read_of_decode {x : Transaction} {i : Instr} (h : decode x = .ok i) :
    x = encode i ∨ ∃ r, i = decodeRead r ∧ txIsWrite x = false ∧ txAddr x = r.offset := by
  rcases decode_cases x with ⟨-, hd⟩ | ⟨-, -, hd⟩ | ⟨r, hr, ⟨hk, hd⟩ | ⟨hk, hd⟩⟩ <;> rw [hd] at h
  · cases h
  · cases h
  · rw [encode_of_decodeWrite h]
    exact .inl (tx_ext (by rw [hk, txIsWrite_encodeWrite])
      (by rw [encodeWrite, txAddr_append, offset_of_regAt hr]) (by rw [encodeWrite, txData_append]))
  · cases h
    exact .inr ⟨r, rfl, hk, (offset_of_regAt hr).symm⟩

/-! ## The rows -/

/-- The encoding of every instruction has the form of its row (R95). -/
theorem encode_and_mask (i : Instr) : encode i &&& i.row.mask = i.row.pattern := by
  cases i with
  | wrStatus w => exact Laws.EncodeMatchesRow.wrStatus w
  | wrCalWr w => exact Laws.EncodeMatchesRow.wrCalWr w
  | wrCalErr w => exact Laws.EncodeMatchesRow.wrCalErr w
  | wrRawT w => exact Laws.EncodeMatchesRow.wrRawT w
  | wrRawP w => exact Laws.EncodeMatchesRow.wrRawP w
  | wrRawH w => exact Laws.EncodeMatchesRow.wrRawH w
  | wrAdcT w => exact Laws.EncodeMatchesRow.wrAdcT w
  | wrAdcP w => exact Laws.EncodeMatchesRow.wrAdcP w
  | wrAdcH w => exact Laws.EncodeMatchesRow.wrAdcH w
  | _ => decide

/-- The mask of a row whose `DATA` is free: `K` and `ADDR` (R95). -/
abbrev headMask : Transaction := 0x1FF00000000

/-- The row of an RD fixes `K` and `ADDR`, and an RD carries no data word (R80, R95). -/
theorem row_decodeRead (r : Reg) : (decodeRead r).row.mask = headMask ∧ (decodeRead r).operand = none := by
  cases r <;> exact ⟨rfl, rfl⟩

/-- The three kinds of row: an RD (of a listed register, so that it can be decided); a command word, which has all its
bits fixed; a WR whose `DATA` is free (R95). -/
theorem row_kinds (i : Instr) :
    (∃ r ∈ allRegs, i = decodeRead r) ∨
    (i.row.mask = BitVec.allOnes 41 ∧ i.operand = none) ∨
    ∃ w, i.operand = some w ∧ i.row.mask = headMask ∧ txData (encode i) = w := by
  cases i with
  | nop | calBegin | calLoad | compensate | unpackRaw => exact .inr (.inl (by decide))
  | wrStatus w | wrCalWr w | wrCalErr w | wrRawT w | wrRawP w | wrRawH w | wrAdcT w | wrAdcP w | wrAdcH w =>
    exact .inr (.inr ⟨w, rfl, rfl, txData_append _ _ _⟩)
  | _ => exact .inl (by decide)

/-- The data word an instruction carries is `DATA` of its encoding (R94). -/
theorem txData_encode {i : Instr} {w : Word} (h : i.operand = some w) : txData (encode i) = w := by
  rcases row_kinds i with ⟨r, -, rfl⟩ | ⟨-, hnone⟩ | ⟨v, hv, -, hdata⟩
  · rw [(row_decodeRead r).2] at h; cases h
  · rw [hnone] at h; cases h
  · rw [hv] at h; cases h; exact hdata

/-- Well-formed is the constraint of the row `WR.CAL_WR`, `OFFSET` at most 32 (R95). -/
theorem wf_iff_offset_le (i : Instr) : i.wf = true ↔ ∀ w, i = .wrCalWr w → w.toNat / 256 % 64 ≤ 32 := by
  cases i with
  | wrCalWr w => exact (calWrLegal_iff w).trans ⟨fun h v hv => by cases hv; exact h, fun h => h w rfl⟩
  | _ => exact iff_of_true rfl (by rintro w ⟨⟩)

/-- Under the head mask a transaction keeps `K` and `ADDR` (R80). -/
theorem and_headMask (x : Transaction) :
    x &&& headMask = BitVec.ofBool (txIsWrite x) ++ txAddr x ++ 0#32 := by
  have hmask : headMask = BitVec.allOnes 1 ++ BitVec.allOnes 8 ++ 0#32 := by decide
  calc x &&& headMask
    _ = (BitVec.ofBool (txIsWrite x) ++ txAddr x ++ txData x) &&& headMask := by rw [tx_eta]
    _ = _ := by
      rw [hmask, BitVec.and_append, BitVec.and_append, BitVec.and_allOnes, BitVec.and_allOnes, BitVec.and_zero]

/-- Two transactions agree under the head mask exactly where they agree in `K` and `ADDR` (R80). -/
theorem and_headMask_eq_iff (x y : Transaction) :
    x &&& headMask = y &&& headMask ↔ txIsWrite x = txIsWrite y ∧ txAddr x = txAddr y := by
  rw [and_headMask, and_headMask]
  constructor
  · intro h
    have hk := congrArg txIsWrite h
    have ha := congrArg txAddr h
    rw [txIsWrite_append, txIsWrite_append] at hk
    rw [txAddr_append, txAddr_append] at ha
    exact ⟨by simpa using hk, ha⟩
  · rintro ⟨hk, ha⟩
    rw [hk, ha]

/-- A decoded transaction has the form of its instruction's row and the instruction's data word (R95). -/
theorem row_form_of_decode {x : Transaction} {i : Instr} (h : decode x = .ok i) :
    x &&& i.row.mask = i.row.pattern ∧ ∀ w, i.operand = some w → w = txData x := by
  rw [← encode_and_mask i]
  rcases eq_encode_or_read_of_decode h with rfl | ⟨r, rfl, hk, ha⟩
  · exact ⟨rfl, fun w hop => (txData_encode hop).symm⟩
  · obtain ⟨hmask, hop⟩ := row_decodeRead r
    rw [hmask, hop, and_headMask_eq_iff, encode_decodeRead, txIsWrite_encodeRead, encodeRead, txAddr_append]
    exact ⟨⟨hk, ha⟩, fun w hw => by cases hw⟩

/-- A transaction of the form of an instruction's row, with its data word, decodes to it (R95). -/
theorem decode_of_row_form {x : Transaction} {i : Instr} (hw : i.wf = true)
    (hform : x &&& i.row.mask = i.row.pattern) (hop : ∀ w, i.operand = some w → w = txData x) :
    decode x = .ok i := by
  rw [← encode_and_mask i] at hform
  rcases row_kinds i with ⟨r, -, rfl⟩ | ⟨hmask, -⟩ | ⟨w, hw', hmask, hdata⟩
  · rw [(row_decodeRead r).1, and_headMask_eq_iff, encode_decodeRead, txIsWrite_encodeRead, encodeRead,
      txAddr_append] at hform
    obtain ⟨hk, ha⟩ := hform
    exact decode_of_read (by rw [ha, regAt_offset]) hk
  · rw [hmask, BitVec.and_allOnes, BitVec.and_allOnes] at hform
    rw [hform, decode_encode hw]
  · rw [hmask, and_headMask_eq_iff] at hform
    obtain ⟨hk, ha⟩ := hform
    rw [tx_ext hk ha (by rw [hdata, hop w hw']), decode_encode hw]

/-- Settles O7: the form of the row is what decoding checks, and the constraint of `WR.CAL_WR` is well-formedness. -/
theorem decoderIsTheOpcodeTable : Obligations.DecoderIsTheOpcodeTable := by
  intro x i
  constructor
  · intro h
    obtain ⟨hform, hop⟩ := row_form_of_decode h
    refine ⟨hform, fun w hi => ?_, hop⟩
    rw [← hop w (by rw [hi]; rfl)]
    exact (wf_iff_offset_le i).1 (wf_of_decode h) w hi
  · rintro ⟨hform, hoff, hop⟩
    refine decode_of_row_form ((wf_iff_offset_le i).2 fun w hi => ?_) hform hop
    rw [hop w (by rw [hi]; rfl)]
    exact hoff w hi

end Sys2Proof

/-! SUPPORT. What the decoder rejects, in the numbers of R92 and R204. -/

namespace Sys2Proof

open Machine Reference

/-- The only rejected word of a WR to `CMD` is an illegal command word (R83). -/
theorem decodeCommand_error {w : Word} {e : Rejection} (h : decodeCommand w = .error e) : e = .illegalCommand := by
  rw [decodeCommand] at h
  split at h
  · split at h <;> cases h
    rfl
  · cases h; rfl

/-- A rejected WR of a mapped register: an illegal command word, a read-only register or an illegal `OFFSET`
(R92 cases 2 to 4). -/
theorem decodeWrite_error {r : Reg} {w : Word} {e : Rejection} (h : decodeWrite r w = .error e) :
    (r = .cmd ∧ e = .illegalCommand) ∨ (r.access = .readOnly ∧ e = .readOnlyWrite) ∨
      (r = .calWr ∧ e = .calWrOffset ∧ calWrLegal w = false) := by
  cases r with
  | cmd => exact .inl ⟨rfl, decodeCommand_error h⟩
  | calWr =>
    rw [decodeWrite] at h
    split at h <;> cases h
    next hl => exact .inr (.inr ⟨rfl, rfl, Bool.eq_false_iff.2 hl⟩)
  | status | calErr | rawT | rawP | rawH | adcT | adcP | adcH => cases h
  | _ => cases h; exact .inr (.inl ⟨rfl, rfl⟩)

/-- A rejected transaction is an illegal command, or one of the four illegal accesses (R92, R203, R204). -/
theorem illegal_of_decode_error {x : Transaction} {e : Rejection} (h : decode x = .error e) :
    (e = .illegalCommand ∧ illegalCommand x) ∨ (e ≠ .illegalCommand ∧ illegalAccess x) := by
  rcases decode_cases x with ⟨ha, hd⟩ | ⟨ha, hn, hd⟩ | ⟨r, hr, ⟨hk, hd⟩ | ⟨hk, hd⟩⟩ <;> rw [hd] at h
  · cases h
    exact .inr ⟨nofun, .inl (.inl ((misaligned_iff _).1 ha))⟩
  · cases h
    exact .inr ⟨nofun, .inl (.inr ((regAt_eq_none_iff _ ha).1 hn))⟩
  · have haddr := offset_of_regAt hr
    rcases decodeWrite_error h with ⟨rfl, rfl⟩ | ⟨hro, rfl⟩ | ⟨rfl, rfl, hoff⟩
    · exact .inl ⟨rfl, hk, by rw [← haddr]; rfl, (decodeCommand_illegal_iff _).1 h⟩
    · exact .inr ⟨nofun, .inr (.inl ⟨hk, (access_regAt_eq_readOnly_iff _).1 (by rw [hr]; exact congrArg some hro)⟩)⟩
    · exact .inr ⟨nofun, .inr (.inr ⟨hk, by rw [← haddr]; rfl, (calWrLegal_eq_false_iff _).1 hoff⟩)⟩
  · cases h

/-- An illegal access decodes to no instruction (R92). -/
theorem not_ok_of_illegalAccess {x : Transaction} (h : illegalAccess x) : ¬∃ i, decode x = .ok i := by
  rintro ⟨i, hi⟩
  obtain ⟨e, he, -⟩ := takeRejection_of_illegalAccess h
  rw [he] at hi
  cases hi

/-- An illegal command word decodes to no instruction (R83). -/
theorem not_ok_of_illegalCommand {x : Transaction} (h : illegalCommand x) : ¬∃ i, decode x = .ok i := by
  rintro ⟨i, hi⟩
  rw [decode_of_illegalCommand h] at hi
  cases hi

/-- `CMD` is an aligned, mapped, writable register: a WR to it is no illegal access (R22, R204). -/
theorem not_illegalAccess_of_illegalCommand {x : Transaction} (h : illegalCommand x) : ¬illegalAccess x := by
  obtain ⟨-, haddr, -⟩ := h
  rw [illegalAccess, badOffset, readOnlyOffset, haddr]
  omega

/-- Settles O8: a word the decoder rejects is illegal in one of the two ways, and these exclude decoding and each
other. -/
theorem everyTransactionIsOneOfThree : Obligations.EveryTransactionIsOneOfThree := by
  intro x
  refine ⟨?_, fun ⟨hok, ha⟩ => not_ok_of_illegalAccess ha hok, fun ⟨hok, hc⟩ => not_ok_of_illegalCommand hc hok,
    fun ⟨ha, hc⟩ => not_illegalAccess_of_illegalCommand hc ha⟩
  cases hd : decode x with
  | ok i => exact .inl ⟨i, rfl⟩
  | error e => exact .inr ((illegal_of_decode_error hd).symm.imp And.right And.right)

end Sys2Proof

/-! SUPPORT. The humidity clamps (R171 to R174). -/

namespace Sys2Proof

open Machine Reference

/-- Settles O43: as a number, each clamp is a `max` or a `min`, and the bounds are in order. -/
theorem clampOrderDoesNotChangeTheValue : Obligations.ClampOrderDoesNotChangeTheValue := by
  intro v
  rw [← BitVec.toInt_inj, toInt_clampHigh, toInt_clampLow, toInt_clampLow, toInt_clampHigh]
  omega

/-- The upper clamp's flag, which is computed after the lower clamp, as a number (R172). -/
theorem hClampHiFlag_clampLow_iff (v : Word) : hClampHiFlag (clampLow v) = true ↔ 419430400 < v.toInt := by
  rw [hClampHiFlag_iff, toInt_clampLow]
  omega

/-- What R42, R29 and R171 to R174 say of `H_OUT` and the two clamp flags. -/
structure HumidityInRange (b : Block) : Prop where
  range : b.hOut.toNat ≤ 102400
  exclude : ¬(b.status.hClampLo = true ∧ b.status.hClampHi = true)
  low : b.status.hClampLo = true → b.hOut = 0
  high : b.status.hClampHi = true → b.hOut = 102400

/-- `COMPENSATE` leaves the humidity clamped, from every block (R171 to R174). -/
theorem compensate_humidityInRange (b : Block) : HumidityInRange (compensate b) := by
  obtain ⟨-, -, -, hOut, -, hLo, hHi⟩ := compensate_outputs b
  have hnat := toNat_hOutOf (stage3V1 b.coef (tFineOf b.coef b.rawT) b.rawH)
  have hzero : (0 : Word).toNat = 0 := rfl
  have hmax : (102400 : Word).toNat = 102400 := rfl
  constructor <;>
    simp only [hOut, hLo, hHi, hClampLoFlag_iff, hClampHiFlag_clampLow_iff, ← BitVec.toNat_inj, hzero, hmax] <;>
    omega

/-- Settles O42: it is the clamped humidity of the block `COMPENSATE` writes. -/
theorem humidityIsClamped : Obligations.HumidityIsClamped := fun s =>
  have h := compensate_humidityInRange s.block
  ⟨_, exec_compensate s, h.range, h.exclude, h.low, h.high⟩

end Sys2Proof

/-! SUPPORT. The invariant of the block (R25, R29, R42, R43, R161): each update keeps it, so every step and run does. -/

namespace Sys2Proof

open Machine Reference

/-- `b'` holds all that the invariant of `b` speaks of. -/
structure SameInvFields (b b' : Block) : Prop where
  stage : b'.stage = b.stage
  coef : b'.coef = b.coef
  pOut : b'.pOut = b.pOut
  hOut : b'.hOut = b.hOut
  calLoaded : b'.status.calLoaded = b.status.calLoaded
  pZero : b'.status.pZero = b.status.pZero
  hClampLo : b'.status.hClampLo = b.status.hClampLo
  hClampHi : b'.status.hClampHi = b.status.hClampHi

/-- An update that touches none of the fields of the invariant keeps it. -/
theorem SameInvFields.inv {b b' : Block} (h : SameInvFields b b') (hb : b.Inv) : b'.Inv := by
  constructor <;> simp only [h.stage, h.coef, h.pOut, h.hOut, h.calLoaded, h.pZero, h.hClampLo, h.hClampHi]
  exacts [hb.stage, hb.unloaded, hb.h4Range, hb.h5Range, hb.hOutRange, hb.clampsExclude, hb.clampedLow,
    hb.clampedHigh, hb.sentinel]

/-- Settles O48: at reset every part of the invariant is about zeros and an empty buffer. -/
theorem resetMeetsTheInvariant : Obligations.ResetMeetsTheInvariant := by
  constructor <;> decide

/-- A delivered byte stays within the staging buffer's offsets (R36). -/
theorem deliverByte_inv {b : Block} {w : Word} (hw : calWrLegal w = true) (v : Byte) (hb : b.Inv) :
    (deliverByte b (calWrOffset w) v).Inv :=
  { hb with stage := deliverByte_wf hb.stage hw v }

/-- A commit sets `CAL_LOADED` and its decoded `H4` and `H5` are 12-bit values (R43, R138). -/
theorem commitCoefs_inv {b : Block} (hb : b.Inv) : (commitCoefs b).Inv :=
  have hranges := decodeCoefs_ranges b.buffer
  { hb with unloaded := nofun, h4Range := hranges.1, h5Range := hranges.2 }

/-- `COMPENSATE` establishes what the invariant says of the outputs and keeps the rest (R161, R171 to R174). -/
theorem compensate_inv {b : Block} (hb : b.Inv) : (compensate b).Inv :=
  have h := compensate_humidityInRange b
  { hb with
    hOutRange := h.range
    clampsExclude := h.exclude
    clampedLow := h.low
    clampedHigh := h.high
    sentinel := pOutOf_of_pZero }

/-- Every well-formed instruction keeps the invariant. -/
theorem exec_inv {i : Instr} {s t : State} (hw : i.wf = true) (h : exec i s = .next t) (hs : s.Inv) : t.Inv := by
  rcases exec_block_cases hw h with
    hb | ⟨-, hb⟩ | ⟨-, -, hb⟩ | ⟨-, -, hb⟩ | ⟨-, hb⟩ | ⟨-, hb⟩ |
    ⟨w, ⟨-, hb⟩ | ⟨-, hoff, hb⟩ | ⟨-, hb⟩ | ⟨-, hb⟩ | ⟨-, hb⟩ | ⟨-, hb⟩ | ⟨-, hb⟩ | ⟨-, hb⟩ | ⟨-, hb⟩⟩ <;>
    rw [State.Inv, hb]
  case inr.inr.inl => -- a load that succeeds
    exact SameInvFields.inv (by constructor <;> simp) (commitCoefs_inv hs)
  case inr.inr.inr.inr.inl => -- `COMPENSATE`
    exact compensate_inv hs
  case inr.inr.inr.inr.inr.inr.inr.inl => -- a delivered byte
    exact deliverByte_inv hoff _ hs
  all_goals exact SameInvFields.inv (by constructor <;> simp) hs

/-- Settles O49: a step resets the block, raises an error's sticky bit, or runs a well-formed instruction. -/
theorem stepKeepsTheInvariant : Obligations.StepKeepsTheInvariant := by
  intro s t hs h
  rcases step_block_cases h with
    hb | ⟨_, -, hb⟩ | ⟨_, _, -, -, hb⟩ | ⟨_, _, _, -, -, -, hb⟩ | ⟨_, _, i, -, -, hw, hx⟩
  case inr.inr.inr.inr => -- an instruction runs
    exact exec_inv hw hx hs
  all_goals rw [State.Inv, hb]
  · exact hs
  · exact resetMeetsTheInvariant
  · exact SameInvFields.inv (by constructor <;> simp) hs
  · exact SameInvFields.inv (by constructor <;> simp) hs

end Sys2Proof

/-! SUPPORT. Steps and runs complete (R62, R74, R232), and what one step of reset, of an access or of waiting is (R21,
R72, R220). -/

namespace Sys2Proof

open Machine Reference

/-- Every instruction completes and leaves the queue alone (R62). -/
theorem exec_completes (i : Instr) (s : State) : ∃ t, exec i s = .next t ∧ t.port.pending = s.port.pending := by
  rcases exec_cases i s with ⟨_, -, h⟩ | ⟨_, -, h⟩ <;> exact ⟨_, h, rfl⟩

/-- Every step completes and takes the first event, if any, off the queue (R62, R72). -/
theorem step_completes (s : State) : ∃ t, step s = .next t ∧ t.port.pending = s.port.pending.tail := by
  rcases step_cases s with ⟨hp, hs⟩ | ⟨rest, hp, hs⟩ | ⟨_, rest, i, hp, -, hs⟩ | ⟨_, rest, e, hp, -, hs⟩
  · exact ⟨s, hs, by simp [hp]⟩
  · exact ⟨_, hs, by simp [hp]⟩
  · obtain ⟨t, ht, hpend⟩ := exec_completes i (s.withPending rest)
    exact ⟨t, hs.trans ht, by simp [hpend, hp]⟩
  · exact ⟨_, hs, by simp [takeRejection_cases e (s.withPending rest), hp]⟩

/-- Settles O4: each of the four things a step can be answers a next state. -/
theorem everyStepCompletes : Obligations.EveryStepCompletes := fun s =>
  (step_completes s).imp fun _ h => h.1

/-- A run begins with one step. -/
theorem run_succ_of_step {M : Host.Core} {s t : M.State} (n : Nat) (h : M.step s = .next t) :
    M.run (n + 1) s = M.run n t := by
  rw [Host.Core.run, h]

/-- Settles O50: by induction on the length of the run, one step at a time. -/
theorem runsKeepTheInvariantAndComplete : Obligations.RunsKeepTheInvariantAndComplete := by
  intro n
  induction n with
  | zero => exact fun s hs => ⟨s, rfl, hs, rfl⟩
  | succ n ih =>
    intro s hs
    obtain ⟨t, ht, hpend⟩ := step_completes s
    obtain ⟨u, hu, hinv, hdrop⟩ := ih t (stepKeepsTheInvariant s t hs ht)
    exact ⟨u, (run_succ_of_step (M := core) n ht).trans hu, hinv, by rw [hdrop, hpend, List.drop_tail]⟩

/-- Settles O3: the two cases of a step that is no reset and no error. -/
theorem stepRunsTheDeliveredAccess : Obligations.StepRunsTheDeliveredAccess :=
  ⟨fun _ _ _ _ hdel hd => step_access_ok hdel hd, fun _ => step_idle⟩

/-- Settles O1: the block is the reset block, whose registers all read 0, and the port keeps the rest of the queue. -/
theorem resetEventClearsTheBlock : Obligations.ResetEventClearsTheBlock := fun s rest hp =>
  ⟨applyReset (s.withPending rest), step_reset hp, readReg_reset, fun _ => rfl, rfl, rfl, rfl⟩

end Sys2Proof

/-! SUPPORT. Who writes what (R33, R36, R37, R47, R228, R229): the effects of a step, each with the event that has it. A
writer of a field is read off the effects that do not leave the field alone. -/

namespace Sys2Proof

open Machine Reference

/-- The block a step can answer, with the event that makes it so. -/
inductive StepEffect (s : State) : Block → Prop
  | unchanged : StepEffect s s.block
  | reset (hreset : Resets s) : StepEffect s Block.reset
  | cmdError {x : Transaction} {rest : List PortEvent} (hdel : Delivers s x rest) (hill : illegalCommand x) :
      StepEffect s (raiseCmdError s.block)
  | accessError {x : Transaction} {rest : List PortEvent} (hdel : Delivers s x rest) (hill : illegalAccess x) :
      StepEffect s (raiseAccessError s.block)
  | calBegin (hruns : Runs s .calBegin) : StepEffect s (discardDelivered s.block)
  | commit (hruns : Runs s .calLoad) : StepEffect s (discardDelivered (commitCoefs s.block))
  | loadFailure (hruns : Runs s .calLoad) : StepEffect s (discardDelivered (raiseTransportFailure s.block))
  | compensate (hruns : Runs s .compensate) : StepEffect s (Machine.compensate s.block)
  | unpackRaw (hruns : Runs s .unpackRaw) : StepEffect s (unpackRawWith Config.unpackExt s.block)
  | wrStatus (w : Word) (hruns : Runs s (.wrStatus w)) :
      StepEffect s { s.block with status := s.block.status.clearSticky w }
  | wrCalWr (w : Word) (hruns : Runs s (.wrCalWr w)) :
      StepEffect s (deliverByte s.block (calWrOffset w) (calWrByte w))
  | wrCalErr (w : Word) (hruns : Runs s (.wrCalErr w)) : StepEffect s { s.block with calErr := calErrOfWord w }
  | wrRawT (w : Word) (hruns : Runs s (.wrRawT w)) : StepEffect s { s.block with rawT := w }
  | wrRawP (w : Word) (hruns : Runs s (.wrRawP w)) : StepEffect s { s.block with rawP := w }
  | wrRawH (w : Word) (hruns : Runs s (.wrRawH w)) : StepEffect s { s.block with rawH := w }
  | wrAdcT (w : Word) (hruns : Runs s (.wrAdcT w)) : StepEffect s { s.block with adcT := adcTOfWord w }
  | wrAdcP (w : Word) (hruns : Runs s (.wrAdcP w)) : StepEffect s { s.block with adcP := adcPOfWord w }
  | wrAdcH (w : Word) (hruns : Runs s (.wrAdcH w)) : StepEffect s { s.block with adcH := adcHOfWord w }

/-- The effect of a well-formed instruction that the next event runs. -/
theorem stepEffect_of_exec {i : Instr} {s s' t : State} (hruns : Runs s i) (hw : i.wf = true)
    (h : exec i s' = .next t) (hblock : s'.block = s.block) : StepEffect s t.block := by
  rcases exec_block_cases hw h with
    hb | ⟨rfl, hb⟩ | ⟨rfl, -, hb⟩ | ⟨rfl, -, hb⟩ | ⟨rfl, hb⟩ | ⟨rfl, hb⟩ |
    ⟨w, ⟨rfl, hb⟩ | ⟨rfl, -, hb⟩ | ⟨rfl, hb⟩ | ⟨rfl, hb⟩ | ⟨rfl, hb⟩ | ⟨rfl, hb⟩ | ⟨rfl, hb⟩ | ⟨rfl, hb⟩ |
      ⟨rfl, hb⟩⟩ <;>
    rw [hb, hblock]
  exacts [.unchanged, .calBegin hruns, .commit hruns, .loadFailure hruns, .compensate hruns, .unpackRaw hruns,
    .wrStatus w hruns, .wrCalWr w hruns, .wrCalErr w hruns, .wrRawT w hruns, .wrRawP w hruns, .wrRawH w hruns,
    .wrAdcT w hruns, .wrAdcP w hruns, .wrAdcH w hruns]

/-- Every step has one of these effects. -/
theorem stepEffect_of_step {s t : State} (h : step s = .next t) : StepEffect s t.block := by
  rcases step_block_cases h with
    hb | ⟨rest, hp, hb⟩ | ⟨x, rest, hp, hd, hb⟩ | ⟨x, rest, e, hp, hd, he, hb⟩ | ⟨x, rest, i, hp, hd, hw, hx⟩
  case inr.inr.inr.inr => -- an instruction runs
    exact stepEffect_of_exec ⟨x, rest, hp, hd⟩ hw hx rfl
  all_goals rw [hb]
  · exact .unchanged
  · exact .reset ⟨rest, hp⟩
  · rcases illegal_of_decode_error hd with ⟨-, hill⟩ | ⟨hne, -⟩
    · exact .cmdError hp hill
    · exact absurd rfl hne
  · rcases illegal_of_decode_error hd with ⟨heq, -⟩ | ⟨-, hill⟩
    · exact absurd heq he
    · exact .accessError hp hill

namespace StepEffect

variable {s : State} {b : Block}

/-! ## The flags of `STATUS` (R47) -/

theorem loadFail_writers (h : StepEffect s b) (hne : b.status.loadFail ≠ s.block.status.loadFail) :
    Resets s ∨ Runs s .calLoad := by
  cases h with
  | reset hreset => exact .inl hreset
  | commit hruns | loadFailure hruns => exact .inr hruns
  | _ => simp at hne

theorem resultFlags_writers (h : StepEffect s b)
    (hne : b.status.pZero ≠ s.block.status.pZero ∨ b.status.hClampLo ≠ s.block.status.hClampLo ∨
      b.status.hClampHi ≠ s.block.status.hClampHi) :
    Resets s ∨ Runs s .compensate := by
  cases h with
  | reset hreset => exact .inl hreset
  | compensate hruns => exact .inr hruns
  | _ => simp at hne

theorem cmdErr_set (h : StepEffect s b) (h0 : s.block.status.cmdErr = false) (h1 : b.status.cmdErr = true) :
    ∃ x rest, Delivers s x rest ∧ illegalCommand x := by
  cases h with
  | reset => cases h1
  | cmdError hdel hill => exact ⟨_, _, hdel, hill⟩
  | _ => simp [h0] at h1

theorem accErr_set (h : StepEffect s b) (h0 : s.block.status.accErr = false) (h1 : b.status.accErr = true) :
    ∃ x rest, Delivers s x rest ∧ illegalAccess x := by
  cases h with
  | reset => cases h1
  | accessError hdel hill => exact ⟨_, _, hdel, hill⟩
  | _ => simp [h0] at h1

theorem cmdErr_cleared (h : StepEffect s b) (h1 : s.block.status.cmdErr = true) (h0 : b.status.cmdErr = false) :
    Resets s ∨ ∃ w, Runs s (.wrStatus w) ∧ w.getLsbD 8 = true := by
  cases h with
  | reset hreset => exact .inl hreset
  | wrStatus w hruns => exact .inr ⟨w, hruns, by simpa [h1, clearsCmdErr] using h0⟩
  | _ => simp [h1] at h0

theorem accErr_cleared (h : StepEffect s b) (h1 : s.block.status.accErr = true) (h0 : b.status.accErr = false) :
    Resets s ∨ ∃ w, Runs s (.wrStatus w) ∧ w.getLsbD 9 = true := by
  cases h with
  | reset hreset => exact .inl hreset
  | wrStatus w hruns => exact .inr ⟨w, hruns, by simpa [h1, clearsAccErr] using h0⟩
  | _ => simp [h1] at h0

/-! ## The staging area (R33, R36) -/

theorem stage_writers (h : StepEffect s b) {a : Nat} (hne : b.stage.read a ≠ s.block.stage.read a) :
    Resets s ∨ ∃ w : Word, Runs s (.wrCalWr w) ∧ w.toNat / 256 % 64 = a := by
  cases h with
  | reset hreset => exact .inl hreset
  | wrCalWr w hruns =>
    refine .inr ⟨w, hruns, not_not.1 fun ha => hne ?_⟩
    rw [← calWrOffset_eq] at ha
    simp [Memory.read_write_of_ne _ _ (Ne.symm ha)]
  | _ => simp at hne

theorem vld_writers (h : StepEffect s b) (hne : b.vld ≠ s.block.vld) :
    Resets s ∨ Runs s .calBegin ∨ Runs s .calLoad ∨ ∃ w, Runs s (.wrCalWr w) := by
  cases h with
  | reset hreset => exact .inl hreset
  | calBegin hruns => exact .inr (.inl hruns)
  | commit hruns | loadFailure hruns => exact .inr (.inr (.inl hruns))
  | wrCalWr w hruns => exact .inr (.inr (.inr ⟨w, hruns⟩))
  | _ => simp at hne

theorem calErr_writers (h : StepEffect s b) (hne : b.calErr ≠ s.block.calErr) :
    Resets s ∨ Runs s .calBegin ∨ Runs s .calLoad ∨ ∃ w, Runs s (.wrCalErr w) := by
  cases h with
  | reset hreset => exact .inl hreset
  | calBegin hruns => exact .inr (.inl hruns)
  | commit hruns | loadFailure hruns => exact .inr (.inr (.inl hruns))
  | wrCalErr w hruns => exact .inr (.inr (.inr ⟨w, hruns⟩))
  | _ => simp at hne

/-! ## The outputs and the inputs (R37, R228, R229) -/

theorem outputs_writers (h : StepEffect s b)
    (hne : b.tFine ≠ s.block.tFine ∨ b.tOut ≠ s.block.tOut ∨ b.pOut ≠ s.block.pOut ∨ b.hOut ≠ s.block.hOut) :
    Resets s ∨ Runs s .compensate := by
  cases h with
  | reset hreset => exact .inl hreset
  | compensate hruns => exact .inr hruns
  | _ => simp at hne

theorem rawT_writers (h : StepEffect s b) (hne : b.rawT ≠ s.block.rawT) :
    Resets s ∨ Runs s .unpackRaw ∨ ∃ w, Runs s (.wrRawT w) := by
  cases h with
  | reset hreset => exact .inl hreset
  | unpackRaw hruns => exact .inr (.inl hruns)
  | wrRawT w hruns => exact .inr (.inr ⟨w, hruns⟩)
  | _ => simp at hne

theorem rawP_writers (h : StepEffect s b) (hne : b.rawP ≠ s.block.rawP) :
    Resets s ∨ Runs s .unpackRaw ∨ ∃ w, Runs s (.wrRawP w) := by
  cases h with
  | reset hreset => exact .inl hreset
  | unpackRaw hruns => exact .inr (.inl hruns)
  | wrRawP w hruns => exact .inr (.inr ⟨w, hruns⟩)
  | _ => simp at hne

theorem rawH_writers (h : StepEffect s b) (hne : b.rawH ≠ s.block.rawH) :
    Resets s ∨ Runs s .unpackRaw ∨ ∃ w, Runs s (.wrRawH w) := by
  cases h with
  | reset hreset => exact .inl hreset
  | unpackRaw hruns => exact .inr (.inl hruns)
  | wrRawH w hruns => exact .inr (.inr ⟨w, hruns⟩)
  | _ => simp at hne

theorem adcT_writers (h : StepEffect s b) (hne : b.adcT ≠ s.block.adcT) : Resets s ∨ ∃ w, Runs s (.wrAdcT w) := by
  cases h with
  | reset hreset => exact .inl hreset
  | wrAdcT w hruns => exact .inr ⟨w, hruns⟩
  | _ => simp at hne

theorem adcP_writers (h : StepEffect s b) (hne : b.adcP ≠ s.block.adcP) : Resets s ∨ ∃ w, Runs s (.wrAdcP w) := by
  cases h with
  | reset hreset => exact .inl hreset
  | wrAdcP w hruns => exact .inr ⟨w, hruns⟩
  | _ => simp at hne

theorem adcH_writers (h : StepEffect s b) (hne : b.adcH ≠ s.block.adcH) : Resets s ∨ ∃ w, Runs s (.wrAdcH w) := by
  cases h with
  | reset hreset => exact .inl hreset
  | wrAdcH w hruns => exact .inr ⟨w, hruns⟩
  | _ => simp at hne

end StepEffect

/-- Only a successful `CAL_LOAD` and reset change `CAL_LOADED` (R47, R223). -/
theorem calLoaded_writers {s t : State} (h : step s = .next t)
    (hne : t.block.status.calLoaded ≠ s.block.status.calLoaded) :
    Resets s ∨ (Runs s .calLoad ∧ FetchComplete s.block) := by
  rcases step_sameLoadedSet_or_reset_or_calLoad h with ⟨-, hflag⟩ | hreset | ⟨hruns, hfetch, -⟩
  · exact absurd hflag hne
  · exact .inl hreset
  · exact .inr ⟨hruns, hfetch⟩

/-- Settles O32: for each flag, the effects that can change it are those of its listed writers. -/
theorem flagWritersAreTheListedOnes : Obligations.FlagWritersAreTheListedOnes := fun _ _ h =>
  have he := stepEffect_of_step h
  ⟨calLoaded_writers h, he.loadFail_writers, he.resultFlags_writers, he.cmdErr_set, he.accErr_set, he.cmdErr_cleared,
   he.accErr_cleared⟩

/-- Settles O34: for `STAGE`, `VLD` and `CAL_ERR`, the effects that can change it are those of its listed writers. -/
theorem stagingWritersAreTheListedOnes : Obligations.StagingWritersAreTheListedOnes := fun _ _ h =>
  have he := stepEffect_of_step h
  ⟨fun _ => he.stage_writers, he.vld_writers, he.calErr_writers⟩

/-- Settles O35: for each output and input, the effects that can change it are those of its listed writers. -/
theorem inputsAndOutputsChangeOnlyAsListed : Obligations.InputsAndOutputsChangeOnlyAsListed := fun _ _ h =>
  have he := stepEffect_of_step h
  ⟨he.outputs_writers, he.rawT_writers, he.rawP_writers, he.rawH_writers, he.adcT_writers, he.adcP_writers,
   he.adcH_writers⟩

end Sys2Proof

/-! SUPPORT. The codec of the coefficient set: `Encode` against `Decode` (R142). -/

namespace Sys2Proof

open Machine Reference

/-! ## Bytes and nibbles of a field -/

/-- A 16-bit field is its two bytes (R127). -/
theorem byte_append_byte (v : BitVec 16) : field v 8 8 ++ field v 0 8 = v := by
  rw [field, field, BitVec.extractLsb'_append_extractLsb'_eq_extractLsb' (by rfl), BitVec.extractLsb'_eq_self]

/-- The low part of a concatenation (R7). -/
theorem field_append_low {m n : Nat} (a : BitVec m) (b : BitVec n) : field (a ++ b) 0 n = b :=
  BitVec.extractLsb'_append_eq_right

/-- The high part of a concatenation (R7). -/
theorem field_append_high {m n : Nat} (a : BitVec m) (b : BitVec n) : field (a ++ b) n m = a :=
  BitVec.extractLsb'_append_eq_left

/-- A byte over a nibble of a 16-bit register is its low 12 bits (R134). -/
theorem byte_append_nibble (v : BitVec 16) : field v 4 8 ++ field v 0 4 = field v 0 12 := by
  rw [field, field, BitVec.extractLsb'_append_extractLsb'_eq_extractLsb' (by rfl)]
  rfl

/-- A register that holds a 12-bit signed value is the sign extension of its low 12 bits (R43, R130). -/
theorem sext12_low12 {v : BitVec 16} (hlo : -2048 ≤ v.toInt) (hhi : v.toInt ≤ 2047) : sext12 (field v 0 12) = v := by
  have hlow : (field v 0 12).toNat = v.toNat % 4096 := by simp [toNat_field]
  rw [← BitVec.toInt_inj, toInt_sext12, toInt_eq_ite (half := 2048) _ rfl, hlow]
  rw [toInt_eq_ite (half := 32768) v rfl] at *
  split <;> omega

/-- The sign extension keeps the 12 bits (R130). -/
theorem field_sext12 (v : BitVec 12) : field (sext12 v) 0 12 = v := by
  refine BitVec.eq_of_getLsbD_eq fun i hi => ?_
  rw [field, sext12, sext, BitVec.getLsbD_extractLsb', Nat.zero_add, BitVec.getLsbD_signExtend]
  simp [hi, show i < 16 by omega]

/-- A byte is its two nibbles (R134, R135). -/
theorem nibble_append_nibble (v : Byte) : field v 4 4 ++ field v 0 4 = v := by
  rw [field, field, BitVec.extractLsb'_append_extractLsb'_eq_extractLsb' (by rfl), BitVec.extractLsb'_eq_self]

/-- Equal concatenations have equal parts (R7). -/
theorem append_inj {m n : Nat} {a a' : BitVec m} {b b' : BitVec n} (h : a ++ b = a' ++ b') : a = a' ∧ b = b' := by
  have hhigh := congrArg (fun v => field v n m) h
  have hlow := congrArg (fun v => field v 0 n) h
  simpa only [field_append_high, field_append_low] using And.intro hhigh hlow

/-! ## The cells `Encode` lays out -/

/-- The cells of a coefficient set, in the order of the layout (R126, R142). -/
def coefCells (c : Coefficients) : Memory :=
  cells16 Layout.t1 c.t1 ++ cells16 Layout.t2 c.t2 ++ cells16 Layout.t3 c.t3 ++ cells16 Layout.p1 c.p1 ++
    cells16 Layout.p2 c.p2 ++ cells16 Layout.p3 c.p3 ++ cells16 Layout.p4 c.p4 ++ cells16 Layout.p5 c.p5 ++
    cells16 Layout.p6 c.p6 ++ cells16 Layout.p7 c.p7 ++ cells16 Layout.p8 c.p8 ++ cells16 Layout.p9 c.p9 ++
    [(Layout.h1, c.h1)] ++ cells16 Layout.h2 c.h2 ++ [(Layout.h3, c.h3)] ++ cellsH45 c.h4 c.h5 ++
    [(Layout.h6, c.h6)]

/-- `Encode` reads those cells. -/
theorem encodeCoefs_eq_read (c : Coefficients) : encodeCoefs c = Memory.read (coefCells c) := rfl

/-- The cells are at the offsets 0 to 32 except 24, once each (R137). -/
theorem coefCells_offsets (c : Coefficients) :
    (coefCells c).map Prod.fst = List.range 24 ++ List.range' 25 8 := by
  simp only [coefCells, cells16, cellsH45, List.map_append, List.map_cons, List.map_nil]
  decide

/-- Where the offsets differ, every cell is read back. -/
theorem read_of_mem {m : Memory} (hm : (m.map Prod.fst).Nodup) {a : Nat} {v : Byte} (h : (a, v) ∈ m) :
    m.read a = v := by
  induction m with
  | nil => cases h
  | cons c rest ih =>
    obtain ⟨hc, hrest⟩ := List.nodup_cons.1 hm
    rcases List.mem_cons.1 h with rfl | hmem
    · simp [Memory.read]
    · have hne : c.1 ≠ a := fun e => hc (e ▸ List.mem_map_of_mem hmem)
      rw [Memory.read, if_neg hne, ih hrest hmem]

/-- An offset that no cell has reads as the unlisted byte. -/
theorem read_of_not_mem {m : Memory} {a : Nat} (h : a ∉ m.map Prod.fst) : m.read a = unlistedByte := by
  induction m with
  | nil => rfl
  | cons c rest ih =>
    obtain ⟨hc, hrest⟩ := not_or.1 (mt List.mem_cons.2 h)
    rw [Memory.read, if_neg (Ne.symm hc), ih hrest]

/-- Offset 24 belongs to no field and is encoded as 0 (R137, R142). -/
theorem encodeCoefs_unused (c : Coefficients) : encodeCoefs c 24 = 0 := by
  rw [encodeCoefs_eq_read]
  exact read_of_not_mem (by rw [coefCells_offsets]; decide)

/-! ## Buffers that hold the cells -/

/-- `B` holds every cell of `m`. -/
def Holds (B : Buffer) (m : Memory) : Prop := ∀ d ∈ m, B d.1 = d.2

/-- `Encode` holds the cells it lays out. -/
theorem holds_encodeCoefs (c : Coefficients) : Holds (encodeCoefs c) (coefCells c) := by
  intro d hd
  rw [encodeCoefs_eq_read]
  exact read_of_mem (by rw [coefCells_offsets]; decide) hd

theorem holds_append_iff {B : Buffer} {m m' : Memory} : Holds B (m ++ m') ↔ Holds B m ∧ Holds B m' :=
  List.forall_mem_append

/-- The cell of a one-byte field (R131, R133, R136). -/
theorem holds_byte_iff {B : Buffer} {i : Nat} {v : Byte} : Holds B [(i, v)] ↔ B i = v := by simp [Holds]

/-- The cells of a 16-bit field hold it in little-endian order (R127). -/
theorem holds_cells16_iff {B : Buffer} {i : Nat} {v : BitVec 16} : Holds B (cells16 i v) ↔ le16 B i = v := by
  have hcells : Holds B (cells16 i v) ↔ B i = field v 0 8 ∧ B (i + 1) = field v 8 8 := by simp [Holds, cells16]
  rw [hcells, le16]
  constructor
  · rintro ⟨hlow, hhigh⟩
    rw [hlow, hhigh, byte_append_byte]
  · rintro rfl
    exact ⟨(field_append_low _ _).symm, (field_append_high _ _).symm⟩

/-- The cells of `H4` and `H5`, as the two 12-bit values they pack (R134, R135). -/
theorem holds_cellsH45_iff {B : Buffer} {h4 h5 : BitVec 16} :
    Holds B (cellsH45 h4 h5) ↔
      B Layout.h45 ++ field (B (Layout.h45 + 1)) 0 4 = field h4 0 12 ∧
      B (Layout.h45 + 2) ++ field (B (Layout.h45 + 1)) 4 4 = field h5 0 12 := by
  have hcells : Holds B (cellsH45 h4 h5) ↔
      B Layout.h45 = field h4 4 8 ∧ B (Layout.h45 + 1) = field h5 0 4 ++ field h4 0 4 ∧
        B (Layout.h45 + 2) = field h5 4 8 := by simp [Holds, cellsH45]
  rw [hcells, ← byte_append_nibble, ← byte_append_nibble]
  constructor
  · rintro ⟨h29, h30, h31⟩
    rw [h29, h30, h31, field_append_low, field_append_high]
    exact ⟨rfl, rfl⟩
  · rintro ⟨h4, h5⟩
    obtain ⟨h29, hlow⟩ := append_inj h4
    obtain ⟨h31, hhigh⟩ := append_inj h5
    exact ⟨h29, by rw [← hlow, ← hhigh, nibble_append_nibble], h31⟩

/-- `B` holds the cells of a set: each field of `Decode` reads it, `H4` and `H5` in their low 12 bits. -/
theorem decodeCoefs_of_holds {B : Buffer} {c : Coefficients} (hB : Holds B (coefCells c))
    (h4 : sext12 (field c.h4 0 12) = c.h4) (h5 : sext12 (field c.h5 0 12) = c.h5) : decodeCoefs B = c := by
  simp only [coefCells, holds_append_iff, holds_byte_iff, holds_cells16_iff, holds_cellsH45_iff, and_assoc] at hB
  obtain ⟨t1, t2, t3, p1, p2, p3, p4, p5, p6, p7, p8, p9, h1, h2, h3, h4', h5', h6⟩ := hB
  simp only [decodeCoefs, decodeH4, decodeH5, *]

/-- A buffer holds the cells of the set it decodes to (R142). -/
theorem holds_decodeCoefs (B : Buffer) : Holds B (coefCells (decodeCoefs B)) := by
  simp only [coefCells, holds_append_iff, holds_byte_iff, holds_cells16_iff, holds_cellsH45_iff,
    decodeCoefs, decodeH4, decodeH5, field_sext12, and_self]

/-! ## The round trip -/

/-- `Encode` of a decoded buffer is the buffer, but for offset 24 (R137, R142). -/
theorem encodeCoefs_decodeCoefs (B : Buffer) {i : Nat} (hlt : i < 33) (hne : i ≠ 24) :
    encodeCoefs (decodeCoefs B) i = B i := by
  have hmem : i ∈ (coefCells (decodeCoefs B)).map Prod.fst := by
    rw [coefCells_offsets, List.mem_append, List.mem_range, List.mem_range'_1]
    omega
  obtain ⟨d, hd, rfl⟩ := List.mem_map.1 hmem
  rw [holds_encodeCoefs _ d hd, holds_decodeCoefs B d hd]

/-- Settles O29: each field is laid out where it is read, and no cell has offset 24. -/
theorem coefficientCodecRoundTrip : Obligations.CoefficientCodecRoundTrip :=
  ⟨fun c h4lo h4hi h5lo h5hi =>
     decodeCoefs_of_holds (holds_encodeCoefs c) (sext12_low12 h4lo h4hi) (sext12_low12 h5lo h5hi),
   fun B _ => encodeCoefs_decodeCoefs B, fun B => encodeCoefs_unused (decodeCoefs B)⟩

end Sys2Proof

/-! SUPPORT. A whole fetch (R94, R141): the run of `CAL_BEGIN`, the 33 deliveries and `CAL_LOAD`. -/

namespace Sys2Proof

open Machine Reference

/-! ## One delivery -/

/-- The data word that delivers byte `v` at offset `i` (R84). -/
def calWrWord (i : Nat) (v : Byte) : Word := BitVec.ofNat 32 (i * 256 + v.toNat)

theorem toNat_calWrWord {i : Nat} (hi : i < 33) (v : Byte) : (calWrWord i v).toNat = i * 256 + v.toNat := by
  have hv := v.isLt
  rw [calWrWord, BitVec.toNat_ofNat, Nat.mod_eq_of_lt (by omega)]

theorem calWrOffset_calWrWord {i : Nat} (hi : i < 33) (v : Byte) : calWrOffset (calWrWord i v) = i := by
  have hv := v.isLt
  rw [calWrOffset_eq, toNat_calWrWord hi]
  omega

theorem calWrByte_calWrWord {i : Nat} (hi : i < 33) (v : Byte) : calWrByte (calWrWord i v) = v := by
  have hv := v.isLt
  refine BitVec.eq_of_toNat_eq ?_
  rw [calWrByte_toNat, toNat_calWrWord hi]
  omega

theorem calWrLegal_calWrWord {i : Nat} (hi : i < 33) (v : Byte) : calWrLegal (calWrWord i v) = true := by
  rw [calWrLegal, calWrOffset_calWrWord hi]
  exact decide_eq_true hi

/-- The event that delivers the byte of `B` at offset `i` (R94). -/
def deliveryEvent (B : Buffer) (i : Nat) : PortEvent := .access (wr 0x08 (calWrWord i (B i)))

/-- A delivery stores its byte (R120). -/
theorem step_deliveryEvent {B : Buffer} {i : Nat} (hi : i < 33) {s : State} {rest : List PortEvent}
    (hp : s.port.pending = deliveryEvent B i :: rest) :
    step s = .next ((s.withPending rest).withBlock (deliverByte s.block i (B i))) := by
  have hlegal := calWrLegal_calWrWord hi (B i)
  rw [step_access_ok hp (decode_wr_calWr hlegal), exec_wrCalWr_legal hlegal, calWrOffset_calWrWord hi,
    calWrByte_calWrWord hi, withPending_block]

/-! ## A list of deliveries -/

/-- The block after the bytes of `B` at the offsets of `l` were delivered, in that order. -/
def deliverAll (B : Buffer) (l : List Nat) (b : Block) : Block := l.foldl (fun b i => deliverByte b i (B i)) b

@[simp] theorem deliverAll_nil (B : Buffer) (b : Block) : deliverAll B [] b = b := rfl

@[simp] theorem deliverAll_cons (B : Buffer) (i : Nat) (l : List Nat) (b : Block) :
    deliverAll B (i :: l) b = deliverAll B l (deliverByte b i (B i)) := rfl

/-- A delivered offset reads as its byte and the others stay (R120). -/
theorem read_deliverAll (B : Buffer) (l : List Nat) (b : Block) (a : Nat) :
    (deliverAll B l b).stage.read a = if a ∈ l then B a else b.stage.read a := by
  induction l generalizing b with
  | nil => simp
  | cons i l ih =>
    rw [deliverAll_cons, ih]
    by_cases hai : a = i
    · simp [hai]
    · simp [hai, Memory.read_write_of_ne _ _ hai]

/-- The valid bits of the delivered offsets are set and the others stay (R120). -/
theorem vld_deliverAll (B : Buffer) {l : List Nat} (hl : ∀ i ∈ l, i < 33) (b : Block) (k : Nat) :
    (deliverAll B l b).vld.getLsbD k = (decide (k ∈ l) || b.vld.getLsbD k) := by
  induction l generalizing b with
  | nil => simp
  | cons i l ih =>
    obtain ⟨hi, hl⟩ := List.forall_mem_cons.1 hl
    rw [deliverAll_cons, ih hl]
    by_cases hki : k = i
    · simp [getLsbD_setBit _ hi, hki]
    · simp [getLsbD_setBit _ hi, hki, Ne.symm hki]

/-- Deliveries write the staging bytes and the valid bits only (R120). -/
theorem deliverAll_frame (B : Buffer) (l : List Nat) (b : Block) :
    deliverAll B l b = { b with stage := (deliverAll B l b).stage, vld := (deliverAll B l b).vld } := by
  induction l generalizing b with
  | nil => rfl
  | cons i l ih => rw [deliverAll_cons, ih]; rfl

/-! ## The run -/

/-- The queue and the block are updated apart from each other. -/
theorem withPending_withBlock (s : State) (es : List PortEvent) (b : Block) :
    (s.withBlock b).withPending es = (s.withPending es).withBlock b := rfl

theorem withPending_withPending (s : State) (es es' : List PortEvent) :
    (s.withPending es).withPending es' = s.withPending es' := rfl

/-- A run of `m + n` steps is a run of `n` steps after one of `m`. -/
theorem run_add {M : Host.Core} {m : Nat} {s t : M.State} (n : Nat) (h : M.run m s = .next t) :
    M.run (m + n) s = M.run n t := by
  induction m generalizing s with
  | zero => cases h; rw [Nat.zero_add]
  | succ m ih =>
    rw [Nat.add_right_comm, Host.Core.run]
    rw [Host.Core.run] at h
    cases hs : M.step s with
    | next s' => rw [hs] at h; exact ih h
    | fault | refused => rw [hs] at h; cases h

/-- A run of deliveries (R120). -/
theorem run_deliveryEvents {B : Buffer} {l : List Nat} (hl : ∀ i ∈ l, i < 33) {s : State} {rest : List PortEvent}
    (hp : s.port.pending = l.map (deliveryEvent B) ++ rest) :
    core.run l.length s = .next ((s.withPending rest).withBlock (deliverAll B l s.block)) := by
  induction l generalizing s with
  | nil =>
    obtain rfl : s.port.pending = rest := hp
    rfl
  | cons i l ih =>
    obtain ⟨hi, hl⟩ := List.forall_mem_cons.1 hl
    exact (run_succ_of_step (M := core) l.length (step_deliveryEvent hi hp)).trans (ih hl rfl)

/-- The events of a fetch, with the deliveries named. -/
theorem fetchEvents_eq (B : Buffer) :
    fetchEvents B =
      .access (wr 0x00 1) :: ((List.range 33).map (deliveryEvent B) ++ [.access (wr 0x00 2)]) := rfl

/-- The block after a fetch of `B` (R141). -/
def fetched (B : Buffer) (b : Block) : Block := calLoad (deliverAll B (List.range 33) (discardDelivered b))

/-- The run of the 33 deliveries of a fetch (R94). -/
theorem run_allDeliveries {B : Buffer} {s : State} {rest : List PortEvent}
    (hp : s.port.pending = (List.range 33).map (deliveryEvent B) ++ rest) :
    core.run 33 s = .next ((s.withPending rest).withBlock (deliverAll B (List.range 33) s.block)) := by
  have hrun := run_deliveryEvents (by simp) hp
  rwa [List.length_range] at hrun

/-- A run of the one event `CAL_LOAD` (R123). -/
theorem run_calLoad {s : State} {rest : List PortEvent} (hp : s.port.pending = .access (wr 0x00 2) :: rest) :
    core.run 1 s = .next ((s.withPending rest).withBlock (calLoad s.block)) :=
  run_succ_of_step (M := core) 0 ((step_access_ok hp (by decide)).trans (exec_calLoad _))

/-- The step of `CAL_BEGIN` (R122). -/
theorem step_calBegin {s : State} {rest : List PortEvent} (hp : s.port.pending = .access (wr 0x00 1) :: rest) :
    step s = .next ((s.withPending rest).withBlock (discardDelivered s.block)) :=
  (step_access_ok hp (by decide)).trans (exec_calBegin _)

/-- The run of the 35 events of a fetch (R94, R141). -/
theorem run_fetchEvents {B : Buffer} {s : State} {rest : List PortEvent}
    (hp : s.port.pending = fetchEvents B ++ rest) :
    core.run (33 + 1 + 1) s = .next ((s.withPending rest).withBlock (fetched B s.block)) := by
  rw [fetchEvents_eq, List.cons_append, List.append_assoc, List.singleton_append] at hp
  rw [run_succ_of_step (M := core) (33 + 1) (step_calBegin hp), run_add (M := core) 1 (run_allDeliveries rfl),
    run_calLoad (rest := rest) rfl]
  simp only [withPending_withBlock, withPending_withPending, withBlock_withBlock, withBlock_block, fetched]

/-- After the 33 deliveries every valid bit is set and no error is reported, so the load commits (R123, R124). -/
theorem fetched_eq (B : Buffer) (b : Block) :
    fetched B b = discardDelivered (commitCoefs (deliverAll B (List.range 33) (discardDelivered b))) := by
  refine calLoad_ok ((loadOk_iff _).2 ⟨fun i hi => ?_, ?_⟩)
  · rw [vld_deliverAll B (by simp)]
    simp [hi]
  · rw [deliverAll_frame]
    exact ⟨rfl, rfl⟩

/-- The fetched set is the one the bytes decode to (R126, R138). -/
theorem coef_fetched (B : Buffer) (b : Block) : (fetched B b).coef = decodeCoefs B := by
  rw [fetched_eq]
  refine decodeCoefs_congr fun i hi _ => ?_
  rw [Block.buffer, read_deliverAll, if_pos (List.mem_range.2 hi)]

/-- A staging byte after a fetch (R120, R140). -/
theorem read_fetched (B : Buffer) (b : Block) (a : Nat) :
    (fetched B b).stage.read a = if a < 33 then B a else b.stage.read a := by
  simp [fetched_eq, read_deliverAll]

/-- What a fetch does to the rest of the block (R138, R140). -/
theorem fetched_frame (B : Buffer) (b : Block) :
    { fetched B b with coef := b.coef, stage := b.stage } =
      { b with
        vld := 0
        calErr := { errA := false, errB := false }
        status := { b.status with calLoaded := true, loadFail := false } } := by
  rw [fetched_eq, deliverAll_frame]
  rfl

/-- Settles O30: the block after the run is the fetched one. -/
theorem fetchCommitsTheDeliveredBuffer : Obligations.FetchCommitsTheDeliveredBuffer := fun B s _ hp =>
  ⟨_, run_fetchEvents hp, coef_fetched B s.block, rfl, rfl,
   fun i hi => (read_fetched B s.block i).trans (if_pos hi),
   fun i hi => (read_fetched B s.block i).trans (if_neg (Nat.not_lt.2 hi)), fetched_frame B s.block⟩

end Sys2Proof

/-! SUPPORT. The three stages of `COMPENSATE` against the integer transcription (R151 to R174): each operator is the
exact result reduced to the width, so each stage is its transcription. -/

namespace Sys2Proof

open Machine Reference

/-! ## The operators -/

/-- Settles O36: the operators of `BitVec` and the ones of Machine/Arith.lean, each as an integer. -/
theorem operatorsAreExactThenWrapped : Obligations.OperatorsAreExactThenWrapped := fun _ _ a b k _ _ =>
  ⟨BitVec.toInt_add a b, BitVec.toInt_sub, BitVec.toInt_mul a b, toInt_shl a k, toInt_asr a k,
   fun _ => toInt_divT a b, ltS_iff a b, BitVec.toInt_inj.symm⟩

/-! The same operators as the transcription writes them: `s32` at 32 bits (R151), `s64` at 64 bits (R157). -/

theorem toInt_add32 (a b : Word) : (a + b).toInt = s32 (a.toInt + b.toInt) := BitVec.toInt_add a b
theorem toInt_sub32 (a b : Word) : (a - b).toInt = s32 (a.toInt - b.toInt) := BitVec.toInt_sub
theorem toInt_mul32 (a b : Word) : (a * b).toInt = s32 (a.toInt * b.toInt) := BitVec.toInt_mul a b
theorem toInt_shl32 (a : Word) (k : Nat) : (shl a k).toInt = s32 (a.toInt * 2 ^ k) := toInt_shl a k
theorem toInt_add64 (a b : DWord) : (a + b).toInt = s64 (a.toInt + b.toInt) := BitVec.toInt_add a b
theorem toInt_sub64 (a b : DWord) : (a - b).toInt = s64 (a.toInt - b.toInt) := BitVec.toInt_sub
theorem toInt_mul64 (a b : DWord) : (a * b).toInt = s64 (a.toInt * b.toInt) := BitVec.toInt_mul a b
theorem toInt_shl64 (a : DWord) (k : Nat) : (shl a k).toInt = s64 (a.toInt * 2 ^ k) := toInt_shl a k
theorem toInt_divT64 (a b : DWord) : (divT a b).toInt = s64 (Int.tdiv a.toInt b.toInt) := toInt_divT a b

/-! ## Stage 1 -/

/-- `t_fine` (R151 to R154). -/
theorem toInt_tFineOf (c : Coefficients) (rt : Word) :
    (Machine.tFineOf c rt).toInt = tFine c.t1.toNat c.t2.toInt c.t3.toInt rt.toInt := by
  simp (disch := decide) only [Machine.tFineOf, stage1Var1, stage1Var2, stage1A, stage1B, tFine, toInt_add32,
    toInt_sub32, toInt_mul32, toInt_shl32, toInt_asr, toInt_sext, toInt_zext, pow_one]

/-- `t_out` (R155). -/
theorem toInt_tOutOf (tf : Word) : (tOutOf tf).toInt = tOut tf.toInt := by
  simp only [tOutOf, tOut, toInt_add32, toInt_mul32, toInt_asr]
  rfl

/-! ## Stage 2 -/

/-- `q1` (R158). -/
theorem toInt_stage2Q1 (tf : Word) : (stage2Q1 tf).toInt = s64 (tf.toInt - 128000) := by
  simp (disch := decide) only [stage2Q1, toInt_sub64, toInt_sext]
  rfl

/-- `q4` (R159). -/
theorem toInt_stage2Q4 (c : Coefficients) (tf : Word) :
    (stage2Q4 c (stage2Q1 tf)).toInt = q4 c.p4.toInt c.p5.toInt c.p6.toInt tf.toInt := by
  simp (disch := decide) only [stage2Q4, q4, toInt_add64, toInt_mul64, toInt_shl64, toInt_sext,
    toInt_stage2Q1]

/-- The denominator (R160). -/
theorem toInt_stage2D (c : Coefficients) (tf : Word) :
    (stage2D c tf).toInt = denominator c.p1.toNat c.p2.toInt c.p3.toInt tf.toInt := by
  have hone : (shl 1 47 : DWord).toInt = 2 ^ 47 := by decide
  simp (disch := decide) only [stage2D, stage2Q5, denominator, toInt_add64, toInt_mul64, toInt_shl64, toInt_asr,
    toInt_sext, toInt_zext, toInt_stage2Q1, hone]

/-- `pb` (R162 to R164). -/
theorem toInt_stage2Pb (c : Coefficients) (tf rp : Word) :
    (stage2Pb c (stage2Pa c tf rp)).toInt =
      pb c.p7.toInt c.p8.toInt c.p9.toInt rp.toInt (stage2Q4 c (stage2Q1 tf)).toInt (stage2D c tf).toInt := by
  have hp0 : (1048576 : DWord).toInt = 1048576 := by decide
  have hscale : (3125 : DWord).toInt = 3125 := by decide
  simp (disch := decide) only [stage2Pb, stage2Pa, stage2C1, stage2C2, pb, toInt_add64, toInt_sub64, toInt_mul64,
    toInt_shl64, toInt_divT64, toInt_asr, toInt_sext, hp0, hscale]

/-! ## Stage 3 -/

/-- `v1` (R165 to R170). -/
theorem toInt_stage3V1 (c : Coefficients) (tf rh : Word) :
    (stage3V1 c tf rh).toInt =
      v1 c.h1.toNat c.h2.toInt c.h3.toNat c.h4.toInt c.h5.toInt c.h6.toInt tf.toInt rh.toInt := by
  simp (disch := decide) only [stage3V1, stage3Correct, stage3V0, stage3U, stage3W1, stage3W2, stage3W3,
    stage3W4, stage3X, v1,
    toInt_add32, toInt_sub32, toInt_mul32, toInt_shl32, toInt_asr, toInt_sext, toInt_zext]
  rfl

/-! ## The inputs of the block -/

theorem toInt_tFineOf_block (b : Block) : (Machine.tFineOf b.coef b.rawT).toInt = Reference.tFineOf b :=
  toInt_tFineOf b.coef b.rawT

theorem toInt_stage2D_block (b : Block) : (stage2D b.coef (Machine.tFineOf b.coef b.rawT)).toInt = dOf b := by
  rw [toInt_stage2D, toInt_tFineOf_block]
  rfl

theorem toInt_stage2Pb_block (b : Block) :
    (stage2Pb b.coef (stage2Pa b.coef (Machine.tFineOf b.coef b.rawT) b.rawP)).toInt = pbOf b := by
  rw [toInt_stage2Pb, toInt_stage2Q4, toInt_stage2D_block, toInt_tFineOf_block]
  rfl

theorem toInt_stage3V1_block (b : Block) :
    (stage3V1 b.coef (Machine.tFineOf b.coef b.rawT) b.rawH).toInt = v1Of b := by
  rw [toInt_stage3V1, toInt_tFineOf_block]
  rfl

/-- `P_ZERO` is the denominator being 0 (R161). -/
theorem pZeroFlag_iff (d : DWord) : pZeroFlag d = true ↔ d.toInt = 0 := by
  rw [pZeroFlag, decide_eq_true_iff, ← BitVec.toInt_inj]
  rfl

/-- `trunc_32` as a number (R164). -/
theorem toNat_trunc32 (v : DWord) : ((trunc 32 v).toNat : Int) = v.toInt % 2 ^ 32 := by
  have hnat : (trunc 32 v).toNat = v.toNat % 2 ^ 32 := BitVec.toNat_setWidth ..
  rw [hnat, BitVec.toInt_eq_toNat_cond]
  split <;> omega

/-- The pressure outside the sentinel (R164). -/
theorem toNat_pOutOf {c : Coefficients} {tf rp : Word} (h : pZeroFlag (stage2D c tf) = false) :
    ((pOutOf c tf rp).toNat : Int) = (stage2Pb c (stage2Pa c tf rp)).toInt % 2 ^ 32 := by
  rw [pOutOf_of_not_pZero h, toNat_trunc32]

/-- Settles O37: stage by stage, each output of `COMPENSATE` is the transcription's, and so are the conditions of
the flags. -/
theorem compensateMatchesTheIntegerPipeline : Obligations.CompensateMatchesTheIntegerPipeline := by
  intro s
  refine ⟨_, exec_compensate s, ?_⟩
  simp only [withBlock_block, compensate_outputs, pZeroFlag_iff, hClampLoFlag_iff, hClampHiFlag_clampLow_iff,
    toInt_tOutOf, toNat_hOutOf, toInt_tFineOf_block, toInt_stage2D_block, toInt_stage3V1_block]
  refine ⟨trivial, trivial, trivial, fun hd => ?_, fun hd => ?_, rfl, trivial, trivial⟩
  · exact pOutOf_of_pZero ((pZeroFlag_iff _).2 ((toInt_stage2D_block s.block).trans hd))
  · rw [toNat_pOutOf, toInt_stage2Pb_block]
    rwa [← Bool.not_eq_true, pZeroFlag_iff, toInt_stage2D_block]

end Sys2Proof

/-! SUPPORT. `COMPENSATE` on special inputs (R160, R178), what it writes and reads (R150, R177), and the physical values
of its outputs (R176). -/

namespace Sys2Proof

open Machine Reference

/-! ## Special inputs of `COMPENSATE` -/

/-- `P1 = 0` makes the denominator 0 (R160). -/
theorem stage2D_of_p1_zero {c : Coefficients} (h : c.p1 = 0) (tf : Word) : stage2D c tf = 0 := by
  simp [stage2D, h, zext, asr]

/-- Settles O41: a zero denominator takes the sentinel. -/
theorem zeroP1TakesTheSentinel : Obligations.ZeroP1TakesTheSentinel := by
  intro s hp1
  have hflag : pZeroFlag (stage2D s.block.coef (Machine.tFineOf s.block.coef s.block.rawT)) = true :=
    decide_eq_true (stage2D_of_p1_zero hp1 _)
  exact ⟨_, exec_compensate s, pOutOf_of_pZero hflag, hflag⟩

/-- With the zero set `t_fine` is 0 (R178). -/
theorem tFineOf_zero (rt : Word) : Machine.tFineOf Coefficients.zero rt = 0 := by
  simp [Machine.tFineOf, stage1Var1, stage1Var2, Coefficients.zero, sext, asr]

/-- With the zero set the humidity value before the clamps is 0 (R178). -/
theorem stage3V1_zero (tf rh : Word) : stage3V1 Coefficients.zero tf rh = 0 := by
  have hh2 : sext 32 Coefficients.zero.h2 = 0#32 := by decide
  have hw4 : stage3W4 Coefficients.zero tf = 0#32 := by
    rw [stage3W4, hh2, BitVec.mul_zero]
    decide
  have hv0 : stage3V0 Coefficients.zero tf rh = 0#32 := by rw [stage3V0, hw4, BitVec.mul_zero]
  rw [stage3V1, hv0]
  decide

/-- Settles O44: `t_fine`, the denominator and the humidity value are 0 whatever the raw values are. -/
theorem allZeroCoefficientsGiveZeroOutputs : Obligations.AllZeroCoefficientsGiveZeroOutputs := by
  intro s hcoef
  have hd : stage2D Coefficients.zero 0 = 0 := stage2D_of_p1_zero rfl 0
  refine ⟨_, exec_compensate s, ?_⟩
  simp only [withBlock_block, compensate_outputs, hcoef, tFineOf_zero, stage3V1_zero]
  exact ⟨trivial, by decide, pOutOf_of_pZero (decide_eq_true hd), decide_eq_true hd, by decide, by decide, by decide⟩

/-- Settles O38: the values of the three stages on the inputs of V-E1, computed. -/
theorem referenceVectorVE1 : Obligations.ReferenceVectorVE1 := by
  intro s hcoef hT hP hH
  refine ⟨_, exec_compensate s, ?_⟩
  simp only [withBlock_block, compensate_outputs, hcoef, hT, hP, hH]
  decide

/-! ## What `COMPENSATE` writes and reads -/

/-- Settles O39: the command word 3 is `COMPENSATE`, whose update of the block names the seven writes. -/
theorem compensateWritesOnlyTheOutputs : Obligations.CompensateWritesOnlyTheOutputs :=
  ⟨by decide, fun s => ⟨_, _, _, _, _, _, _, exec_compensate s⟩⟩

/-- Settles O40: the seven writes are functions of the raw values and the coefficients. -/
theorem compensateDependsOnlyOnItsInputs : Obligations.CompensateDependsOnlyOnItsInputs := by
  intro s s' hT hP hH hcoef
  refine ⟨_, _, exec_compensate s, exec_compensate s', ?_⟩
  simp only [withBlock_block, compensate_outputs, hT, hP, hH, hcoef, and_self]

/-- Settles O45: a quotient times its unit is the output, and the clamped humidity is at most 102400 of 1024 units. -/
theorem physicalValuesOfTheOutputs : Obligations.PhysicalValuesOfTheOutputs := by
  refine ⟨fun b => ⟨div_mul_cancel₀ _ (by decide), div_mul_cancel₀ _ (by decide), div_mul_cancel₀ _ (by decide)⟩,
    fun s => ⟨_, exec_compensate s, ?_, ?_⟩⟩
  · exact div_nonneg (Nat.cast_nonneg _) (Nat.cast_nonneg _)
  · have hrange : ((compensate s.block).hOut.toNat : Rat) ≤ 102400 :=
      mod_cast (compensate_humidityInRange s.block).range
    calc humidityPercent (compensate s.block)
      _ ≤ 102400 / humidityUnit := div_le_div_of_nonneg_right hrange (Nat.cast_nonneg _)
      _ = 100 := by norm_num [humidityUnit]

end Sys2Proof

/-! SUPPORT. What the register reads return (R100), the repeated stores (R64), the extension rule (R194), and that only
the read of `STATUS` depends on it (R47). -/

namespace Sys2Proof

open Machine Reference

/-! ## Plain reads and stores -/

/-- Settles O5: the eight transactions, decoded. -/
theorem sampleTransactionsDecode : Obligations.SampleTransactionsDecode := by
  refine ⟨?_, ?_, ?_, ?_, ?_, ?_, ?_, ?_⟩ <;> decide

/-- Settles O20: each of the seven stores overwrites one field with a value that does not depend on the state. -/
theorem repeatedStoresHaveNoFurtherEffect : Obligations.RepeatedStoresHaveNoFurtherEffect := by
  intro w i hi s
  simp only [List.mem_cons, List.not_mem_nil, or_false] at hi
  rcases hi with rfl | rfl | rfl | rfl | rfl | rfl | rfl <;> exact ⟨_, rfl, rfl⟩

/-- Settles O17: each register reads as its field, the `ADC_*` registers zero-extended. -/
theorem readsOfDataRegisters : Obligations.ReadsOfDataRegisters := fun s =>
  ⟨_, _, _, exec_decodeRead .rawT s, exec_decodeRead .rawP s, exec_decodeRead .rawH s,
   ⟨exec_decodeRead .adcT s, toNat_zext _ (by decide)⟩, ⟨exec_decodeRead .adcP s, toNat_zext _ (by decide)⟩,
   ⟨exec_decodeRead .adcH s, toNat_zext _ (by decide)⟩, exec_decodeRead .tFine s, exec_decodeRead .tOut s,
   exec_decodeRead .pOut s, exec_decodeRead .hOut s⟩

/-- The word of `STATUS` as a number: its flags at bits 0 to 4, 8 and 9 (R24, R100). -/
theorem toNat_statusWord (f : Status) :
    f.toWord.toNat = f.calLoaded.toNat + 2 * f.loadFail.toNat + 4 * f.pZero.toNat + 8 * f.hClampLo.toNat +
      16 * f.hClampHi.toNat + 256 * f.cmdErr.toNat + 512 * f.accErr.toNat := by
  simp only [Status.toWord, toNat_append_eq_add, BitVec.toNat_ofBool, BitVec.toNat_ofNat]
  omega

/-- The word of `CAL_ERR` as a number (R33, R100). -/
theorem toNat_calErrWord (e : CalErr) : e.toWord.toNat = e.errA.toNat + 2 * e.errB.toNat := by
  simp only [CalErr.toWord, toNat_append_eq_add, BitVec.toNat_ofBool, BitVec.toNat_ofNat]
  omega

/-- The word of `CAL_VLD_A` as a number (R34). -/
theorem toNat_calVldA (vld : BitVec 33) : (calVldA vld).toNat = vld.toNat % 2 ^ 26 := by
  rw [calVldA, toNat_zext _ (by decide), toNat_field, pow_zero, Nat.div_one]

/-- The word of `CAL_VLD_B` as a number (R35). -/
theorem toNat_calVldB (vld : BitVec 33) : (calVldB vld).toNat = vld.toNat / 2 ^ 26 := by
  have hlt : vld.toNat / 2 ^ 26 < 2 ^ 7 := by have := vld.isLt; omega
  rw [calVldB, toNat_zext _ (by decide), toNat_field, Nat.mod_eq_of_lt hlt]

/-- Settles O16: each register reads as its word, with the bits where R100 puts them. -/
theorem readsOfControlRegisters : Obligations.ReadsOfControlRegisters := fun s =>
  ⟨_, _, _, _, exec_decodeRead .cmd s, exec_decodeRead .calWr s,
   ⟨exec_decodeRead .status s, toNat_statusWord _⟩, ⟨exec_decodeRead .calErr s, toNat_calErrWord _⟩,
   ⟨exec_decodeRead .calVldA s, toNat_calVldA _⟩, ⟨exec_decodeRead .calVldB s, toNat_calVldB _⟩⟩

/-! ## What depends on `STATUS` -/

/-- `CAL_LOAD` checks the valid bits and `CAL_ERR` only: outside `STATUS` its result does not depend on it (R47,
R124). -/
theorem calLoad_withStatus (b : Block) (f : Status) :
    { calLoad { b with status := f } with status := (calLoad b).status } = calLoad b := by
  cases h : loadOk b with
  | true => rw [calLoad_ok h, calLoad_ok (b := { b with status := f }) h]; rfl
  | false => rw [calLoad_fail h, calLoad_fail (b := { b with status := f }) h]; rfl

/-- Settles O33: `CAL_LOAD` and `WR.CAL_WR` branch, on other registers; the rest do not branch. -/
theorem onlyTheStatusReadDependsOnStatus : Obligations.OnlyTheStatusReadDependsOnStatus := by
  intro i s f hne
  cases i with
  | rdStatus => exact absurd rfl hne
  | calLoad => exact ⟨_, _, exec_calLoad _, exec_calLoad _, rfl, calLoad_withStatus s.block f⟩
  | wrCalWr w =>
    cases hl : calWrLegal w with
    | true => exact ⟨_, _, exec_wrCalWr_legal hl _, exec_wrCalWr_legal hl _, rfl, rfl⟩
    | false => exact ⟨_, _, exec_wrCalWr_illegal hl _, exec_wrCalWr_illegal hl _, rfl, rfl⟩
  | _ => exact ⟨_, _, rfl, rfl, rfl, rfl⟩

/-! ## The extension rule -/

/-- Settles O47: one setting keeps the unsigned value and the other the signed one, and these agree below half the
range. -/
theorem extensionSettings : Obligations.ExtensionSettings := by
  rintro n hn v
  have hzero : (extendRaw .zero v).toNat = v.toNat := toNat_zext v (by omega)
  have hsign : (extendRaw .sign v).toInt = v.toInt := toInt_sext v (by omega)
  have hint : v.toInt = if 2 ^ (n - 1) ≤ v.toNat then (v.toNat : Int) - (2 ^ n : Nat) else v.toNat :=
    toInt_eq_ite v (by rcases hn with rfl | rfl <;> rfl)
  refine ⟨hzero, by rw [hsign, hint]; push_cast; rfl, fun hlt => ?_⟩
  rw [← BitVec.toInt_inj, hsign, hint, if_neg (Nat.not_le.2 hlt)]
  exact (toInt_zext v (by omega)).symm

end Sys2Proof
